-- ==== Sys2Proof/Word.lean ====
section
/-! DEFINITION. The two word sizes of the machine (00_scope R5: `XLEN8`, `XLEN16`) and their plainest
arithmetic. All address arithmetic is modulo 65536 (20_memory R79), which `BitVec 16` gives. -/

namespace Sys2Proof

/-- An 8-bit value: a register half, a memory byte, a port byte (00_scope R5 `XLEN8`). -/
abbrev Byte := BitVec 8

/-- A 16-bit value: a register pair, IX, IY, SP, PC, a memory or port address (00_scope R5 `XLEN16`). -/
abbrev Word := BitVec 16

end Sys2Proof
end

