-- ==== Sys2Proof/Syntax.lean ====
section
/-! DEFINITION. The instructions of the machine: one constructor of `Instr` for every row of
spec/opcode_table.json, in the table's order. Register numbers, pairs and conditions are constructors, so that a
code that names no register (code 6, 30_encoding R113) cannot be written. Bits of an encoding that do not affect the
instruction (fields `u`, `v`, `x` of R112, and `z` of `BIT b,(XY+d)`, R123) are kept, so that no bit of an
instruction's bytes is lost (log 10). -/

namespace Sys2Proof

/-- The 8-bit registers that a register code names (30_encoding R113). -/
inductive R8 where
  | b | c | d | e | h | l | a
deriving DecidableEq, Repr

/-- The register pairs `dd` and `ss` (30_encoding R114). -/
inductive DD where
  | bc | de | hl | sp
deriving DecidableEq, Repr

/-- The register pairs `qq` of PUSH and POP (30_encoding R114). -/
inductive QQ where
  | bc | de | hl | af
deriving DecidableEq, Repr

/-- The register pairs `pp` and `rr` of ADD IX,pp and ADD IY,rr; code 2 is the index register itself
(30_encoding R114). -/
inductive PP where
  | bc | de | xy | sp
deriving DecidableEq, Repr

/-- The index register that a DD or FD byte selects (00_scope R10 `XY`, field `i` of 30_encoding R112). -/
inductive XY where
  | ix | iy
deriving DecidableEq, Repr

/-- A half of an index register (field `j` of 30_encoding R112): `hi` is XYH, `lo` is XYL. -/
inductive Half where
  | hi | lo
deriving DecidableEq, Repr

/-- The 8-bit registers of `LD p,p'`: under a DD or FD byte, codes 4 and 5 name the halves of the index register
(40_load8 R168). -/
inductive P8 where
  | b | c | d | e | xyh | xyl | a
deriving DecidableEq, Repr

/-- The condition codes (30_encoding R115). -/
inductive Cond where
  | nz | z | nc | c | po | pe | p | m
deriving DecidableEq, Repr

/-- The instructions: the rows of spec/opcode_table.json. -/
inductive Instr where
  -- The unprefixed page, `00yyyzzz` (30_encoding R121)
  /-- `NOP`, R325 -/
  | nop
  /-- `EX AF,AF'`, R221 -/
  | exAfAf
  /-- `DJNZ e`, R429 -/
  | djnz (e : Byte)
  /-- `JR e`, R422 -/
  | jr (e : Byte)
  /-- `JR NZ,e`, R426 -/
  | jrNz (e : Byte)
  /-- `JR Z,e`, R425 -/
  | jrZ (e : Byte)
  /-- `JR NC,e`, R424 -/
  | jrNc (e : Byte)
  /-- `JR C,e`, R423 -/
  | jrC (e : Byte)
  /-- `LD dd,nn`, R190 -/
  | ldDdNn (dd : DD) (nn : Word)
  /-- `ADD HL,ss`, R340 -/
  | addHlSs (ss : DD)
  /-- `LD (BC),A`, R161 -/
  | ldMemBcA
  /-- `LD A,(BC)`, R158 -/
  | ldAMemBc
  /-- `LD (DE),A`, R162 -/
  | ldMemDeA
  /-- `LD A,(DE)`, R159 -/
  | ldAMemDe
  /-- `LD (nn),HL`, R195 -/
  | ldMemNnHl (nn : Word)
  /-- `LD HL,(nn)`, R192 -/
  | ldHlMemNn (nn : Word)
  /-- `LD (nn),A`, R163 -/
  | ldMemNnA (nn : Word)
  /-- `LD A,(nn)`, R160 -/
  | ldAMemNn (nn : Word)
  /-- `INC ss`, R344 -/
  | incSs (ss : DD)
  /-- `DEC ss`, R346 -/
  | decSs (ss : DD)
  /-- `INC r`, R300 -/
  | incR (r : R8)
  /-- `INC (HL)`, R301 -/
  | incMemHl
  /-- `DEC r`, R304 -/
  | decR (r : R8)
  /-- `DEC (HL)`, R305 -/
  | decMemHl
  /-- `LD r,n`, R151 -/
  | ldRN (r : R8) (n : Byte)
  /-- `LD (HL),n`, R156 -/
  | ldMemHlN (n : Byte)
  /-- `RLCA`, R360 -/
  | rlca
  /-- `RRCA`, R362 -/
  | rrca
  /-- `RLA`, R361 -/
  | rla
  /-- `RRA`, R363 -/
  | rra
  /-- `DAA`, R320 -/
  | daa
  /-- `CPL`, R321 -/
  | cpl
  /-- `SCF`, R324 -/
  | scf
  /-- `CCF`, R323 -/
  | ccf
  -- The unprefixed page, `01yyyzzz` and `10yyyzzz`
  /-- `LD r,r'`, R150 -/
  | ldRR (r r' : R8)
  /-- `LD r,(HL)`, R152 -/
  | ldRMemHl (r : R8)
  /-- `LD (HL),r`, R154 -/
  | ldMemHlR (r : R8)
  /-- `HALT`, R326 -/
  | halt
  /-- `ADD A,r`, R260 -/
  | addR (r : R8)
  /-- `ADD A,(HL)`, R262 -/
  | addMemHl
  /-- `ADD A,n`, R261 -/
  | addN (n : Byte)
  /-- `ADC A,r`, R265 -/
  | adcR (r : R8)
  /-- `ADC A,(HL)`, R267 -/
  | adcMemHl
  /-- `ADC A,n`, R266 -/
  | adcN (n : Byte)
  /-- `SUB r`, R270 -/
  | subR (r : R8)
  /-- `SUB (HL)`, R272 -/
  | subMemHl
  /-- `SUB n`, R271 -/
  | subN (n : Byte)
  /-- `SBC A,r`, R275 -/
  | sbcR (r : R8)
  /-- `SBC A,(HL)`, R277 -/
  | sbcMemHl
  /-- `SBC A,n`, R276 -/
  | sbcN (n : Byte)
  /-- `AND r`, R280 -/
  | andR (r : R8)
  /-- `AND (HL)`, R282 -/
  | andMemHl
  /-- `AND n`, R281 -/
  | andN (n : Byte)
  /-- `XOR r`, R285 -/
  | xorR (r : R8)
  /-- `XOR (HL)`, R287 -/
  | xorMemHl
  /-- `XOR n`, R286 -/
  | xorN (n : Byte)
  /-- `OR r`, R290 -/
  | orR (r : R8)
  /-- `OR (HL)`, R292 -/
  | orMemHl
  /-- `OR n`, R291 -/
  | orN (n : Byte)
  /-- `CP r`, R295 -/
  | cpR (r : R8)
  /-- `CP (HL)`, R297 -/
  | cpMemHl
  /-- `CP n`, R296 -/
  | cpN (n : Byte)
  -- The unprefixed page, `11yyyzzz`, and the immediate forms above it
  /-- `RET cc`, R433 -/
  | retCc (cc : Cond)
  /-- `POP qq`, R202 -/
  | popQq (qq : QQ)
  /-- `RET`, R432 -/
  | ret
  /-- `EXX`, R222 -/
  | exx
  /-- `JP (HL)`, R427 -/
  | jpHl
  /-- `LD SP,HL`, R198 -/
  | ldSpHl
  /-- `JP cc,nn`, R421 -/
  | jpCcNn (cc : Cond) (nn : Word)
  /-- `JP nn`, R420 -/
  | jpNn (nn : Word)
  /-- `OUT (n),A`, R457 -/
  | outNA (n : Byte)
  /-- `IN A,(n)`, R450 -/
  | inAN (n : Byte)
  /-- `EX (SP),HL`, R223 -/
  | exSpHl
  /-- `EX DE,HL`, R220 -/
  | exDeHl
  /-- `DI`, R327 -/
  | di
  /-- `EI`, R328 -/
  | ei
  /-- `CALL cc,nn`, R431 -/
  | callCcNn (cc : Cond) (nn : Word)
  /-- `PUSH qq`, R200 -/
  | pushQq (qq : QQ)
  /-- `CALL nn`, R430 -/
  | callNn (nn : Word)
  /-- `RST p`, R436 -/
  | rst (t : BitVec 3)
  -- The CB page (R131)
  /-- `RLC r`, R365 -/
  | rlcR (r : R8)
  /-- `RLC (HL)`, R366 -/
  | rlcMemHl
  /-- `RRC r`, R369 -/
  | rrcR (r : R8)
  /-- `RRC (HL)`, R370 -/
  | rrcMemHl
  /-- `RL r`, R373 -/
  | rlR (r : R8)
  /-- `RL (HL)`, R374 -/
  | rlMemHl
  /-- `RR r`, R377 -/
  | rrR (r : R8)
  /-- `RR (HL)`, R378 -/
  | rrMemHl
  /-- `SLA r`, R381 -/
  | slaR (r : R8)
  /-- `SLA (HL)`, R382 -/
  | slaMemHl
  /-- `SRA r`, R385 -/
  | sraR (r : R8)
  /-- `SRA (HL)`, R386 -/
  | sraMemHl
  /-- `SLL r`, R389 -/
  | sllR (r : R8)
  /-- `SLL (HL)`, R390 -/
  | sllMemHl
  /-- `SRL r`, R393 -/
  | srlR (r : R8)
  /-- `SRL (HL)`, R394 -/
  | srlMemHl
  /-- `BIT b,r`, R400 -/
  | bitR (bit : BitVec 3) (r : R8)
  /-- `BIT b,(HL)`, R401 -/
  | bitMemHl (bit : BitVec 3)
  /-- `RES b,r`, R407 -/
  | resR (bit : BitVec 3) (r : R8)
  /-- `RES b,(HL)`, R408 -/
  | resMemHl (bit : BitVec 3)
  /-- `SET b,r`, R403 -/
  | setR (bit : BitVec 3) (r : R8)
  /-- `SET b,(HL)`, R404 -/
  | setMemHl (bit : BitVec 3)
  -- The ED page, second bytes 0x40 to 0x7F, and the ED no-operations (R125)
  /-- `IN r,(C)`, R451 -/
  | inRC (r : R8)
  /-- `IN (C)`, R452 -/
  | inC
  /-- `OUT (C),r`, R458 -/
  | outCR (r : R8)
  /-- `OUT (C),0`, R459 -/
  | outC0
  /-- `SBC HL,ss`, R342 -/
  | sbcHlSs (ss : DD)
  /-- `ADC HL,ss`, R341 -/
  | adcHlSs (ss : DD)
  /-- `LD (nn),dd`, R196 -/
  | ldMemNnDd (dd : DD) (nn : Word)
  /-- `LD dd,(nn)`, R193 -/
  | ldDdMemNn (dd : DD) (nn : Word)
  /-- `NEG`, R322 -/
  | neg (u : BitVec 3)
  /-- `RETI`, R434 -/
  | reti
  /-- `RETN`, R435 -/
  | retn (u : BitVec 3)
  /-- `IM 0`, R329 -/
  | im0 (u v : BitVec 1)
  /-- `IM 1`, R330 -/
  | im1 (u : BitVec 1)
  /-- `IM 2`, R331 -/
  | im2 (u : BitVec 1)
  /-- `LD I,A`, R166 -/
  | ldIA
  /-- `LD R,A`, R167 -/
  | ldRA
  /-- `LD A,I`, R164 -/
  | ldAI
  /-- `LD A,R`, R165 -/
  | ldAR
  /-- `RRD`, R398 -/
  | rrd
  /-- `RLD`, R397 -/
  | rld
  /-- `NOP*` (ED 77, ED 7F), R332 -/
  | nopEd7 (u : BitVec 1)
  /-- `NOP*` (ED 00..3F), R332 -/
  | nopEd0 (x : BitVec 6)
  /-- `NOP*` (ED 80..9F), R332 -/
  | nopEd8 (x : BitVec 5)
  /-- `NOP*` (ED A4..A7, AC..AF, B4..B7, BC..BF), R332 -/
  | nopEdA (x x' : BitVec 2)
  /-- `NOP*` (ED C0..FF), R332 -/
  | nopEdC (x : BitVec 6)
  -- The ED page, block group (R125)
  /-- `LDI`, R225 -/
  | ldi
  /-- `CPI`, R229 -/
  | cpi
  /-- `INI`, R453 -/
  | ini
  /-- `OUTI`, R460 -/
  | outi
  /-- `LDD`, R227 -/
  | ldd
  /-- `CPD`, R231 -/
  | cpd
  /-- `IND`, R455 -/
  | ind
  /-- `OUTD`, R462 -/
  | outd
  /-- `LDIR`, R226 -/
  | ldir
  /-- `CPIR`, R230 -/
  | cpir
  /-- `INIR`, R454 -/
  | inir
  /-- `OTIR`, R461 -/
  | otir
  /-- `LDDR`, R228 -/
  | lddr
  /-- `CPDR`, R232 -/
  | cpdr
  /-- `INDR`, R456 -/
  | indr
  /-- `OTDR`, R463 -/
  | otdr
  -- The DD/FD page (R122); `xy` is the field `i`: IX for 0xDD, IY for 0xFD
  /-- `ADD IX,pp`, R343 -/
  | addXyPp (xy : XY) (pp : PP)
  /-- `LD IX,nn`, R191 -/
  | ldXyNn (xy : XY) (nn : Word)
  /-- `LD (nn),IX`, R197 -/
  | ldMemNnXy (xy : XY) (nn : Word)
  /-- `INC IX`, R345 -/
  | incXy (xy : XY)
  /-- `INC IXH/IXL`, R303 -/
  | incXyHalf (xy : XY) (j : Half)
  /-- `DEC IXH/IXL`, R307 -/
  | decXyHalf (xy : XY) (j : Half)
  /-- `LD IXH/IXL,n`, R169 -/
  | ldXyHalfN (xy : XY) (j : Half) (n : Byte)
  /-- `LD IX,(nn)`, R194 -/
  | ldXyMemNn (xy : XY) (nn : Word)
  /-- `DEC IX`, R347 -/
  | decXy (xy : XY)
  /-- `INC (IX+d)`, R302 -/
  | incMemXy (xy : XY) (d : Byte)
  /-- `DEC (IX+d)`, R306 -/
  | decMemXy (xy : XY) (d : Byte)
  /-- `LD (IX+d),n`, R157 -/
  | ldMemXyN (xy : XY) (d n : Byte)
  /-- `LD r,(IX+d)`, R153 -/
  | ldRMemXy (xy : XY) (r : R8) (d : Byte)
  /-- `LD (IX+d),r`, R155 -/
  | ldMemXyR (xy : XY) (r : R8) (d : Byte)
  /-- `LD p,p'`, R168 -/
  | ldPP (xy : XY) (p p' : P8)
  /-- `ADD A,(IX+d)`, R263 -/
  | addMemXy (xy : XY) (d : Byte)
  /-- `ADD A,IXH/IXL`, R264 -/
  | addXyHalf (xy : XY) (j : Half)
  /-- `ADC A,(IX+d)`, R268 -/
  | adcMemXy (xy : XY) (d : Byte)
  /-- `ADC A,IXH/IXL`, R269 -/
  | adcXyHalf (xy : XY) (j : Half)
  /-- `SUB (IX+d)`, R273 -/
  | subMemXy (xy : XY) (d : Byte)
  /-- `SUB IXH/IXL`, R274 -/
  | subXyHalf (xy : XY) (j : Half)
  /-- `SBC A,(IX+d)`, R278 -/
  | sbcMemXy (xy : XY) (d : Byte)
  /-- `SBC A,IXH/IXL`, R279 -/
  | sbcXyHalf (xy : XY) (j : Half)
  /-- `AND (IX+d)`, R283 -/
  | andMemXy (xy : XY) (d : Byte)
  /-- `AND IXH/IXL`, R284 -/
  | andXyHalf (xy : XY) (j : Half)
  /-- `XOR (IX+d)`, R288 -/
  | xorMemXy (xy : XY) (d : Byte)
  /-- `XOR IXH/IXL`, R289 -/
  | xorXyHalf (xy : XY) (j : Half)
  /-- `OR (IX+d)`, R293 -/
  | orMemXy (xy : XY) (d : Byte)
  /-- `OR IXH/IXL`, R294 -/
  | orXyHalf (xy : XY) (j : Half)
  /-- `CP (IX+d)`, R298 -/
  | cpMemXy (xy : XY) (d : Byte)
  /-- `CP IXH/IXL`, R299 -/
  | cpXyHalf (xy : XY) (j : Half)
  /-- `POP IX`, R203 -/
  | popXy (xy : XY)
  /-- `EX (SP),IX`, R224 -/
  | exSpXy (xy : XY)
  /-- `PUSH IX`, R201 -/
  | pushXy (xy : XY)
  /-- `JP (IX)`, R428 -/
  | jpXy (xy : XY)
  /-- `LD SP,IX`, R199 -/
  | ldSpXy (xy : XY)
  -- The DDCB/FDCB page (R123)
  /-- `RLC (IX+d)`, R367 -/
  | rlcMemXy (xy : XY) (d : Byte)
  /-- `RLC (IX+d),r`, R368 -/
  | rlcMemXyR (xy : XY) (d : Byte) (r : R8)
  /-- `RRC (IX+d)`, R371 -/
  | rrcMemXy (xy : XY) (d : Byte)
  /-- `RRC (IX+d),r`, R372 -/
  | rrcMemXyR (xy : XY) (d : Byte) (r : R8)
  /-- `RL (IX+d)`, R375 -/
  | rlMemXy (xy : XY) (d : Byte)
  /-- `RL (IX+d),r`, R376 -/
  | rlMemXyR (xy : XY) (d : Byte) (r : R8)
  /-- `RR (IX+d)`, R379 -/
  | rrMemXy (xy : XY) (d : Byte)
  /-- `RR (IX+d),r`, R380 -/
  | rrMemXyR (xy : XY) (d : Byte) (r : R8)
  /-- `SLA (IX+d)`, R383 -/
  | slaMemXy (xy : XY) (d : Byte)
  /-- `SLA (IX+d),r`, R384 -/
  | slaMemXyR (xy : XY) (d : Byte) (r : R8)
  /-- `SRA (IX+d)`, R387 -/
  | sraMemXy (xy : XY) (d : Byte)
  /-- `SRA (IX+d),r`, R388 -/
  | sraMemXyR (xy : XY) (d : Byte) (r : R8)
  /-- `SLL (IX+d)`, R391 -/
  | sllMemXy (xy : XY) (d : Byte)
  /-- `SLL (IX+d),r`, R392 -/
  | sllMemXyR (xy : XY) (d : Byte) (r : R8)
  /-- `SRL (IX+d)`, R395 -/
  | srlMemXy (xy : XY) (d : Byte)
  /-- `SRL (IX+d),r`, R396 -/
  | srlMemXyR (xy : XY) (d : Byte) (r : R8)
  /-- `BIT b,(IX+d)`, R402 -/
  | bitMemXy (xy : XY) (bit : BitVec 3) (d : Byte) (z : BitVec 3)
  /-- `RES b,(IX+d)`, R409 -/
  | resMemXy (xy : XY) (bit : BitVec 3) (d : Byte)
  /-- `RES b,(IX+d),r`, R410 -/
  | resMemXyR (xy : XY) (bit : BitVec 3) (d : Byte) (r : R8)
  /-- `SET b,(IX+d)`, R405 -/
  | setMemXy (xy : XY) (bit : BitVec 3) (d : Byte)
  /-- `SET b,(IX+d),r`, R406 -/
  | setMemXyR (xy : XY) (bit : BitVec 3) (d : Byte) (r : R8)
  -- A DD or FD byte executed alone (R124)
  /-- `NONI`, R333 -/
  | noni (xy : XY)
deriving DecidableEq, Repr

end Sys2Proof
end

