-- ==== Sys2Proof/WellFormed.lean ====
section
/-! DEFINITION. The checks that the types of Syntax.lean do not make: two rows of the opcode table constrain their
fields beyond what a type says. -/

namespace Sys2Proof

/-- Whether an operand of `LD p,p'` is a half of the index register. -/
def P8.isHalf : P8 → Bool
  | .xyh | .xyl => true
  | .b | .c | .d | .e | .a => false

/-- The constraint column of the opcode table where the types leave one open: `LD p,p'` names at least one half of the
index register (40_load8 R168; otherwise the DD or FD byte is NONI, 30_encoding R124), and the RETN copies are not
the encoding of RETI (30_encoding R126). -/
def Instr.WellFormed : Instr → Bool
  | .ldPP _ p p' => p.isHalf || p'.isHalf
  | .retn u => u != 1
  | _ => true

end Sys2Proof
end

