-- ==== Sys2Proof/Decode.lean ====
section
/-! DEFINITION. Decoding bytes and encoding instructions (30_encoding). `decode` is total on any list of bytes and
rejects by name; the encoder writes the bytes of the spec's encoding column, field beside field, and does not look at
the decoder. Bytes are in ascending address order, the first at the lowest address (20_memory R72). -/

namespace Sys2Proof

/-! ### Register, pair and condition codes (30_encoding R113 to R115) -/

/-- The code of an 8-bit register (R113); 6 is no register's. -/
def R8.code : R8 → BitVec 3
  | .b => 0 | .c => 1 | .d => 2 | .e => 3 | .h => 4 | .l => 5 | .a => 7

/-- The 8-bit register with a code; none for code 6 (R113). -/
def R8.ofCode : Nat → Option R8
  | 0 => some .b | 1 => some .c | 2 => some .d | 3 => some .e | 4 => some .h | 5 => some .l | 7 => some .a
  | _ => none

/-- The code of an operand of `LD p,p'` (40_load8 R168). -/
def P8.code : P8 → BitVec 3
  | .b => 0 | .c => 1 | .d => 2 | .e => 3 | .xyh => 4 | .xyl => 5 | .a => 7

/-- The operand of `LD p,p'` with a code. -/
def P8.ofCode : Nat → Option P8
  | 0 => some .b | 1 => some .c | 2 => some .d | 3 => some .e | 4 => some .xyh | 5 => some .xyl | 7 => some .a
  | _ => none

/-- The code of a pair `dd` or `ss` (R114). -/
def DD.code : DD → BitVec 2
  | .bc => 0 | .de => 1 | .hl => 2 | .sp => 3

/-- The pair `dd` or `ss` with a code. -/
def DD.ofCode : Nat → DD
  | 0 => .bc | 1 => .de | 2 => .hl | _ => .sp

/-- The code of a pair `qq` (R114). -/
def QQ.code : QQ → BitVec 2
  | .bc => 0 | .de => 1 | .hl => 2 | .af => 3

/-- The pair `qq` with a code. -/
def QQ.ofCode : Nat → QQ
  | 0 => .bc | 1 => .de | 2 => .hl | _ => .af

/-- The code of a pair `pp` or `rr` (R114). -/
def PP.code : PP → BitVec 2
  | .bc => 0 | .de => 1 | .xy => 2 | .sp => 3

/-- The pair `pp` or `rr` with a code. -/
def PP.ofCode : Nat → PP
  | 0 => .bc | 1 => .de | 2 => .xy | _ => .sp

/-- The code of a condition (R115). -/
def Cond.code : Cond → BitVec 3
  | .nz => 0 | .z => 1 | .nc => 2 | .c => 3 | .po => 4 | .pe => 5 | .p => 6 | .m => 7

/-- The condition with a code. -/
def Cond.ofCode : Nat → Cond
  | 0 => .nz | 1 => .z | 2 => .nc | 3 => .c | 4 => .po | 5 => .pe | 6 => .p | _ => .m

/-- The field `i` of a DD or FD byte (R112): 0 is IX, 1 is IY. -/
def XY.code : XY → BitVec 1
  | .ix => 0 | .iy => 1

/-- The field `j` (R112): 0 is the high half, 1 the low half. -/
def Half.code : Half → BitVec 1
  | .hi => 0 | .lo => 1

/-! ### The encoder -/

/-- The bytes of an instruction, first byte first: the encoding column of the opcode table (30_encoding R118, R130). -/
def encode : Instr → List Byte
  | .nop => [0x00]
  | .exAfAf => [0x08]
  | .djnz e => [0x10, e]
  | .jr e => [0x18, e]
  | .jrNz e => [0x20, e]
  | .jrZ e => [0x28, e]
  | .jrNc e => [0x30, e]
  | .jrC e => [0x38, e]
  | .ldDdNn dd nn => [0b00#2 ++ dd.code ++ 0b0001#4, nn.extractLsb' 0 8, nn.extractLsb' 8 8]
  | .addHlSs ss => [0b00#2 ++ ss.code ++ 0b1001#4]
  | .ldMemBcA => [0x02]
  | .ldAMemBc => [0x0A]
  | .ldMemDeA => [0x12]
  | .ldAMemDe => [0x1A]
  | .ldMemNnHl nn => [0x22, nn.extractLsb' 0 8, nn.extractLsb' 8 8]
  | .ldHlMemNn nn => [0x2A, nn.extractLsb' 0 8, nn.extractLsb' 8 8]
  | .ldMemNnA nn => [0x32, nn.extractLsb' 0 8, nn.extractLsb' 8 8]
  | .ldAMemNn nn => [0x3A, nn.extractLsb' 0 8, nn.extractLsb' 8 8]
  | .incSs ss => [0b00#2 ++ ss.code ++ 0b0011#4]
  | .decSs ss => [0b00#2 ++ ss.code ++ 0b1011#4]
  | .incR r => [0b00#2 ++ r.code ++ 0b100#3]
  | .incMemHl => [0x34]
  | .decR r => [0b00#2 ++ r.code ++ 0b101#3]
  | .decMemHl => [0x35]
  | .ldRN r n => [0b00#2 ++ r.code ++ 0b110#3, n]
  | .ldMemHlN n => [0x36, n]
  | .rlca => [0x07]
  | .rrca => [0x0F]
  | .rla => [0x17]
  | .rra => [0x1F]
  | .daa => [0x27]
  | .cpl => [0x2F]
  | .scf => [0x37]
  | .ccf => [0x3F]
  | .ldRR r r' => [0b01#2 ++ r.code ++ r'.code]
  | .ldRMemHl r => [0b01#2 ++ r.code ++ 0b110#3]
  | .ldMemHlR r => [0b01110#5 ++ r.code]
  | .halt => [0x76]
  | .addR r => [0b10000#5 ++ r.code]
  | .addMemHl => [0x86]
  | .addN n => [0xC6, n]
  | .adcR r => [0b10001#5 ++ r.code]
  | .adcMemHl => [0x8E]
  | .adcN n => [0xCE, n]
  | .subR r => [0b10010#5 ++ r.code]
  | .subMemHl => [0x96]
  | .subN n => [0xD6, n]
  | .sbcR r => [0b10011#5 ++ r.code]
  | .sbcMemHl => [0x9E]
  | .sbcN n => [0xDE, n]
  | .andR r => [0b10100#5 ++ r.code]
  | .andMemHl => [0xA6]
  | .andN n => [0xE6, n]
  | .xorR r => [0b10101#5 ++ r.code]
  | .xorMemHl => [0xAE]
  | .xorN n => [0xEE, n]
  | .orR r => [0b10110#5 ++ r.code]
  | .orMemHl => [0xB6]
  | .orN n => [0xF6, n]
  | .cpR r => [0b10111#5 ++ r.code]
  | .cpMemHl => [0xBE]
  | .cpN n => [0xFE, n]
  | .retCc cc => [0b11#2 ++ cc.code ++ 0b000#3]
  | .popQq qq => [0b11#2 ++ qq.code ++ 0b0001#4]
  | .ret => [0xC9]
  | .exx => [0xD9]
  | .jpHl => [0xE9]
  | .ldSpHl => [0xF9]
  | .jpCcNn cc nn => [0b11#2 ++ cc.code ++ 0b010#3, nn.extractLsb' 0 8, nn.extractLsb' 8 8]
  | .jpNn nn => [0xC3, nn.extractLsb' 0 8, nn.extractLsb' 8 8]
  | .outNA n => [0xD3, n]
  | .inAN n => [0xDB, n]
  | .exSpHl => [0xE3]
  | .exDeHl => [0xEB]
  | .di => [0xF3]
  | .ei => [0xFB]
  | .callCcNn cc nn => [0b11#2 ++ cc.code ++ 0b100#3, nn.extractLsb' 0 8, nn.extractLsb' 8 8]
  | .pushQq qq => [0b11#2 ++ qq.code ++ 0b0101#4]
  | .callNn nn => [0xCD, nn.extractLsb' 0 8, nn.extractLsb' 8 8]
  | .rst t => [0b11#2 ++ t ++ 0b111#3]
  | .rlcR r => [0xCB, 0b00000#5 ++ r.code]
  | .rlcMemHl => [0xCB, 0x06]
  | .rrcR r => [0xCB, 0b00001#5 ++ r.code]
  | .rrcMemHl => [0xCB, 0x0E]
  | .rlR r => [0xCB, 0b00010#5 ++ r.code]
  | .rlMemHl => [0xCB, 0x16]
  | .rrR r => [0xCB, 0b00011#5 ++ r.code]
  | .rrMemHl => [0xCB, 0x1E]
  | .slaR r => [0xCB, 0b00100#5 ++ r.code]
  | .slaMemHl => [0xCB, 0x26]
  | .sraR r => [0xCB, 0b00101#5 ++ r.code]
  | .sraMemHl => [0xCB, 0x2E]
  | .sllR r => [0xCB, 0b00110#5 ++ r.code]
  | .sllMemHl => [0xCB, 0x36]
  | .srlR r => [0xCB, 0b00111#5 ++ r.code]
  | .srlMemHl => [0xCB, 0x3E]
  | .bitR bit r => [0xCB, 0b01#2 ++ bit ++ r.code]
  | .bitMemHl bit => [0xCB, 0b01#2 ++ bit ++ 0b110#3]
  | .resR bit r => [0xCB, 0b10#2 ++ bit ++ r.code]
  | .resMemHl bit => [0xCB, 0b10#2 ++ bit ++ 0b110#3]
  | .setR bit r => [0xCB, 0b11#2 ++ bit ++ r.code]
  | .setMemHl bit => [0xCB, 0b11#2 ++ bit ++ 0b110#3]
  | .inRC r => [0xED, 0b01#2 ++ r.code ++ 0b000#3]
  | .inC => [0xED, 0x70]
  | .outCR r => [0xED, 0b01#2 ++ r.code ++ 0b001#3]
  | .outC0 => [0xED, 0x71]
  | .sbcHlSs ss => [0xED, 0b01#2 ++ ss.code ++ 0b0010#4]
  | .adcHlSs ss => [0xED, 0b01#2 ++ ss.code ++ 0b1010#4]
  | .ldMemNnDd dd nn => [0xED, 0b01#2 ++ dd.code ++ 0b0011#4, nn.extractLsb' 0 8, nn.extractLsb' 8 8]
  | .ldDdMemNn dd nn => [0xED, 0b01#2 ++ dd.code ++ 0b1011#4, nn.extractLsb' 0 8, nn.extractLsb' 8 8]
  | .neg u => [0xED, 0b01#2 ++ u ++ 0b100#3]
  | .reti => [0xED, 0x4D]
  | .retn u => [0xED, 0b01#2 ++ u ++ 0b101#3]
  | .im0 u v => [0xED, 0b01#2 ++ u ++ 0b0#1 ++ v ++ 0b110#3]
  | .im1 u => [0xED, 0b01#2 ++ u ++ 0b10110#5]
  | .im2 u => [0xED, 0b01#2 ++ u ++ 0b11110#5]
  | .ldIA => [0xED, 0x47]
  | .ldRA => [0xED, 0x4F]
  | .ldAI => [0xED, 0x57]
  | .ldAR => [0xED, 0x5F]
  | .rrd => [0xED, 0x67]
  | .rld => [0xED, 0x6F]
  | .nopEd7 u => [0xED, 0b0111#4 ++ u ++ 0b111#3]
  | .nopEd0 x => [0xED, 0b00#2 ++ x]
  | .nopEd8 x => [0xED, 0b100#3 ++ x]
  | .nopEdA x x' => [0xED, 0b101#3 ++ x ++ 0b1#1 ++ x']
  | .nopEdC x => [0xED, 0b11#2 ++ x]
  | .ldi => [0xED, 0xA0]
  | .cpi => [0xED, 0xA1]
  | .ini => [0xED, 0xA2]
  | .outi => [0xED, 0xA3]
  | .ldd => [0xED, 0xA8]
  | .cpd => [0xED, 0xA9]
  | .ind => [0xED, 0xAA]
  | .outd => [0xED, 0xAB]
  | .ldir => [0xED, 0xB0]
  | .cpir => [0xED, 0xB1]
  | .inir => [0xED, 0xB2]
  | .otir => [0xED, 0xB3]
  | .lddr => [0xED, 0xB8]
  | .cpdr => [0xED, 0xB9]
  | .indr => [0xED, 0xBA]
  | .otdr => [0xED, 0xBB]
  | .addXyPp xy pp => [0b11#2 ++ xy.code ++ 0b11101#5, 0b00#2 ++ pp.code ++ 0b1001#4]
  | .ldXyNn xy nn => [0b11#2 ++ xy.code ++ 0b11101#5, 0x21, nn.extractLsb' 0 8, nn.extractLsb' 8 8]
  | .ldMemNnXy xy nn => [0b11#2 ++ xy.code ++ 0b11101#5, 0x22, nn.extractLsb' 0 8, nn.extractLsb' 8 8]
  | .incXy xy => [0b11#2 ++ xy.code ++ 0b11101#5, 0x23]
  | .incXyHalf xy j => [0b11#2 ++ xy.code ++ 0b11101#5, 0b0010#4 ++ j.code ++ 0b100#3]
  | .decXyHalf xy j => [0b11#2 ++ xy.code ++ 0b11101#5, 0b0010#4 ++ j.code ++ 0b101#3]
  | .ldXyHalfN xy j n => [0b11#2 ++ xy.code ++ 0b11101#5, 0b0010#4 ++ j.code ++ 0b110#3, n]
  | .ldXyMemNn xy nn => [0b11#2 ++ xy.code ++ 0b11101#5, 0x2A, nn.extractLsb' 0 8, nn.extractLsb' 8 8]
  | .decXy xy => [0b11#2 ++ xy.code ++ 0b11101#5, 0x2B]
  | .incMemXy xy d => [0b11#2 ++ xy.code ++ 0b11101#5, 0x34, d]
  | .decMemXy xy d => [0b11#2 ++ xy.code ++ 0b11101#5, 0x35, d]
  | .ldMemXyN xy d n => [0b11#2 ++ xy.code ++ 0b11101#5, 0x36, d, n]
  | .ldRMemXy xy r d => [0b11#2 ++ xy.code ++ 0b11101#5, 0b01#2 ++ r.code ++ 0b110#3, d]
  | .ldMemXyR xy r d => [0b11#2 ++ xy.code ++ 0b11101#5, 0b01110#5 ++ r.code, d]
  | .ldPP xy p p' => [0b11#2 ++ xy.code ++ 0b11101#5, 0b01#2 ++ p.code ++ p'.code]
  | .addMemXy xy d => [0b11#2 ++ xy.code ++ 0b11101#5, 0x86, d]
  | .addXyHalf xy j => [0b11#2 ++ xy.code ++ 0b11101#5, 0b1000010#7 ++ j.code]
  | .adcMemXy xy d => [0b11#2 ++ xy.code ++ 0b11101#5, 0x8E, d]
  | .adcXyHalf xy j => [0b11#2 ++ xy.code ++ 0b11101#5, 0b1000110#7 ++ j.code]
  | .subMemXy xy d => [0b11#2 ++ xy.code ++ 0b11101#5, 0x96, d]
  | .subXyHalf xy j => [0b11#2 ++ xy.code ++ 0b11101#5, 0b1001010#7 ++ j.code]
  | .sbcMemXy xy d => [0b11#2 ++ xy.code ++ 0b11101#5, 0x9E, d]
  | .sbcXyHalf xy j => [0b11#2 ++ xy.code ++ 0b11101#5, 0b1001110#7 ++ j.code]
  | .andMemXy xy d => [0b11#2 ++ xy.code ++ 0b11101#5, 0xA6, d]
  | .andXyHalf xy j => [0b11#2 ++ xy.code ++ 0b11101#5, 0b1010010#7 ++ j.code]
  | .xorMemXy xy d => [0b11#2 ++ xy.code ++ 0b11101#5, 0xAE, d]
  | .xorXyHalf xy j => [0b11#2 ++ xy.code ++ 0b11101#5, 0b1010110#7 ++ j.code]
  | .orMemXy xy d => [0b11#2 ++ xy.code ++ 0b11101#5, 0xB6, d]
  | .orXyHalf xy j => [0b11#2 ++ xy.code ++ 0b11101#5, 0b1011010#7 ++ j.code]
  | .cpMemXy xy d => [0b11#2 ++ xy.code ++ 0b11101#5, 0xBE, d]
  | .cpXyHalf xy j => [0b11#2 ++ xy.code ++ 0b11101#5, 0b1011110#7 ++ j.code]
  | .popXy xy => [0b11#2 ++ xy.code ++ 0b11101#5, 0xE1]
  | .exSpXy xy => [0b11#2 ++ xy.code ++ 0b11101#5, 0xE3]
  | .pushXy xy => [0b11#2 ++ xy.code ++ 0b11101#5, 0xE5]
  | .jpXy xy => [0b11#2 ++ xy.code ++ 0b11101#5, 0xE9]
  | .ldSpXy xy => [0b11#2 ++ xy.code ++ 0b11101#5, 0xF9]
  | .rlcMemXy xy d => [0b11#2 ++ xy.code ++ 0b11101#5, 0xCB, d, 0x06]
  | .rlcMemXyR xy d r => [0b11#2 ++ xy.code ++ 0b11101#5, 0xCB, d, 0b00000#5 ++ r.code]
  | .rrcMemXy xy d => [0b11#2 ++ xy.code ++ 0b11101#5, 0xCB, d, 0x0E]
  | .rrcMemXyR xy d r => [0b11#2 ++ xy.code ++ 0b11101#5, 0xCB, d, 0b00001#5 ++ r.code]
  | .rlMemXy xy d => [0b11#2 ++ xy.code ++ 0b11101#5, 0xCB, d, 0x16]
  | .rlMemXyR xy d r => [0b11#2 ++ xy.code ++ 0b11101#5, 0xCB, d, 0b00010#5 ++ r.code]
  | .rrMemXy xy d => [0b11#2 ++ xy.code ++ 0b11101#5, 0xCB, d, 0x1E]
  | .rrMemXyR xy d r => [0b11#2 ++ xy.code ++ 0b11101#5, 0xCB, d, 0b00011#5 ++ r.code]
  | .slaMemXy xy d => [0b11#2 ++ xy.code ++ 0b11101#5, 0xCB, d, 0x26]
  | .slaMemXyR xy d r => [0b11#2 ++ xy.code ++ 0b11101#5, 0xCB, d, 0b00100#5 ++ r.code]
  | .sraMemXy xy d => [0b11#2 ++ xy.code ++ 0b11101#5, 0xCB, d, 0x2E]
  | .sraMemXyR xy d r => [0b11#2 ++ xy.code ++ 0b11101#5, 0xCB, d, 0b00101#5 ++ r.code]
  | .sllMemXy xy d => [0b11#2 ++ xy.code ++ 0b11101#5, 0xCB, d, 0x36]
  | .sllMemXyR xy d r => [0b11#2 ++ xy.code ++ 0b11101#5, 0xCB, d, 0b00110#5 ++ r.code]
  | .srlMemXy xy d => [0b11#2 ++ xy.code ++ 0b11101#5, 0xCB, d, 0x3E]
  | .srlMemXyR xy d r => [0b11#2 ++ xy.code ++ 0b11101#5, 0xCB, d, 0b00111#5 ++ r.code]
  | .bitMemXy xy bit d z => [0b11#2 ++ xy.code ++ 0b11101#5, 0xCB, d, 0b01#2 ++ bit ++ z]
  | .resMemXy xy bit d => [0b11#2 ++ xy.code ++ 0b11101#5, 0xCB, d, 0b10#2 ++ bit ++ 0b110#3]
  | .resMemXyR xy bit d r => [0b11#2 ++ xy.code ++ 0b11101#5, 0xCB, d, 0b10#2 ++ bit ++ r.code]
  | .setMemXy xy bit d => [0b11#2 ++ xy.code ++ 0b11101#5, 0xCB, d, 0b11#2 ++ bit ++ 0b110#3]
  | .setMemXyR xy bit d r => [0b11#2 ++ xy.code ++ 0b11101#5, 0xCB, d, 0b11#2 ++ bit ++ r.code]
  | .noni xy => [0b11#2 ++ xy.code ++ 0b11101#5]

/-- How many bytes an instruction has (30_encoding R118, R128). -/
def Instr.length : Instr → Nat
  | .nop | .exAfAf | .addHlSs _ | .ldMemBcA | .ldAMemBc | .ldMemDeA | .ldAMemDe | .incSs _ | .decSs _
  | .incR _ | .incMemHl | .decR _ | .decMemHl | .rlca | .rrca | .rla | .rra | .daa | .cpl | .scf | .ccf
  | .ldRR _ _ | .ldRMemHl _ | .ldMemHlR _ | .halt | .addR _ | .addMemHl | .adcR _ | .adcMemHl | .subR _
  | .subMemHl | .sbcR _ | .sbcMemHl | .andR _ | .andMemHl | .xorR _ | .xorMemHl | .orR _ | .orMemHl | .cpR _
  | .cpMemHl | .retCc _ | .popQq _ | .ret | .exx | .jpHl | .ldSpHl | .exSpHl | .exDeHl | .di | .ei
  | .pushQq _ | .rst _ | .noni _ => 1
  | .djnz _ | .jr _ | .jrNz _ | .jrZ _ | .jrNc _ | .jrC _ | .ldRN _ _ | .ldMemHlN _ | .addN _ | .adcN _
  | .subN _ | .sbcN _ | .andN _ | .xorN _ | .orN _ | .cpN _ | .outNA _ | .inAN _ | .rlcR _ | .rlcMemHl
  | .rrcR _ | .rrcMemHl | .rlR _ | .rlMemHl | .rrR _ | .rrMemHl | .slaR _ | .slaMemHl | .sraR _ | .sraMemHl
  | .sllR _ | .sllMemHl | .srlR _ | .srlMemHl | .bitR _ _ | .bitMemHl _ | .resR _ _ | .resMemHl _ | .setR _ _
  | .setMemHl _ | .inRC _ | .inC | .outCR _ | .outC0 | .sbcHlSs _ | .adcHlSs _ | .neg _ | .reti | .retn _
  | .im0 _ _ | .im1 _ | .im2 _ | .ldIA | .ldRA | .ldAI | .ldAR | .rrd | .rld | .nopEd7 _ | .nopEd0 _
  | .nopEd8 _ | .nopEdA _ _ | .nopEdC _ | .ldi | .cpi | .ini | .outi | .ldd | .cpd | .ind | .outd | .ldir
  | .cpir | .inir | .otir | .lddr | .cpdr | .indr | .otdr | .addXyPp _ _ | .incXy _ | .incXyHalf _ _
  | .decXyHalf _ _ | .decXy _ | .ldPP _ _ _ | .addXyHalf _ _ | .adcXyHalf _ _ | .subXyHalf _ _
  | .sbcXyHalf _ _ | .andXyHalf _ _ | .xorXyHalf _ _ | .orXyHalf _ _ | .cpXyHalf _ _ | .popXy _ | .exSpXy _
  | .pushXy _ | .jpXy _ | .ldSpXy _ => 2
  | .ldDdNn _ _ | .ldMemNnHl _ | .ldHlMemNn _ | .ldMemNnA _ | .ldAMemNn _ | .jpCcNn _ _ | .jpNn _
  | .callCcNn _ _ | .callNn _ | .ldXyHalfN _ _ _ | .incMemXy _ _ | .decMemXy _ _ | .ldRMemXy _ _ _
  | .ldMemXyR _ _ _ | .addMemXy _ _ | .adcMemXy _ _ | .subMemXy _ _ | .sbcMemXy _ _ | .andMemXy _ _
  | .xorMemXy _ _ | .orMemXy _ _ | .cpMemXy _ _ => 3
  | .ldMemNnDd _ _ | .ldDdMemNn _ _ | .ldXyNn _ _ | .ldMemNnXy _ _ | .ldXyMemNn _ _ | .ldMemXyN _ _ _
  | .rlcMemXy _ _ | .rlcMemXyR _ _ _ | .rrcMemXy _ _ | .rrcMemXyR _ _ _ | .rlMemXy _ _ | .rlMemXyR _ _ _
  | .rrMemXy _ _ | .rrMemXyR _ _ _ | .slaMemXy _ _ | .slaMemXyR _ _ _ | .sraMemXy _ _ | .sraMemXyR _ _ _
  | .sllMemXy _ _ | .sllMemXyR _ _ _ | .srlMemXy _ _ | .srlMemXyR _ _ _ | .bitMemXy _ _ _ _ | .resMemXy _ _ _
  | .resMemXyR _ _ _ _ | .setMemXy _ _ _ | .setMemXyR _ _ _ _ => 4

/-! ### The decoder -/

/-- Why a list of bytes is not decoded. -/
inductive DecodeError where
  /-- the list ends before the instruction does: nothing can be said of these bytes alone -/
  | truncated
  /-- no row of the opcode table has these bytes (60_exceptions R501 `DecodeDefect`); R127 says this never happens -/
  | noRow
deriving DecidableEq, Repr

/-- What an opcode byte still needs before it is an instruction. -/
inductive Form where
  /-- no row has this opcode -/
  | noRow
  /-- the instruction is complete -/
  | plain (i : Instr)
  /-- one operand byte follows: `n`, `e` or `d` -/
  | imm8 (f : Byte → Instr)
  /-- a 16-bit operand follows, low byte first (R120) -/
  | imm16 (f : Word → Instr)
  /-- a displacement `d` and then an immediate `n` follow (R118 `X4dn`) -/
  | imm88 (f : Byte → Byte → Instr)

/-- Fields of an opcode byte (R112): `x = op[7:6]`. -/
def opX (op : Byte) : Nat := (op.extractLsb' 6 2).toNat
/-- `y = op[5:3]` (R112). -/
def opY (op : Byte) : Nat := (op.extractLsb' 3 3).toNat
/-- `z = op[2:0]` (R112). -/
def opZ (op : Byte) : Nat := (op.extractLsb' 0 3).toNat
/-- `p = op[5:4]` (R112). -/
def opP (op : Byte) : Nat := (op.extractLsb' 4 2).toNat
/-- `q = op[3]` (R112). -/
def opQ (op : Byte) : Nat := (op.extractLsb' 3 1).toNat

/-- The 16-bit value of two bytes, the first the low one (20_memory R72). -/
def wordOf (lo hi : Byte) : Word := hi ++ lo

/-- The ALU operations (R116) on a register. -/
def aluR (r : R8) : Nat → Form
  | 0 => .plain (.addR r) | 1 => .plain (.adcR r) | 2 => .plain (.subR r) | 3 => .plain (.sbcR r)
  | 4 => .plain (.andR r) | 5 => .plain (.xorR r) | 6 => .plain (.orR r) | 7 => .plain (.cpR r)
  | _ => .noRow

/-- The ALU operations (R116) on `(HL)`. -/
def aluMemHl : Nat → Form
  | 0 => .plain .addMemHl | 1 => .plain .adcMemHl | 2 => .plain .subMemHl | 3 => .plain .sbcMemHl
  | 4 => .plain .andMemHl | 5 => .plain .xorMemHl | 6 => .plain .orMemHl | 7 => .plain .cpMemHl
  | _ => .noRow

/-- The ALU operations (R116) on an immediate. -/
def aluN : Nat → Form
  | 0 => .imm8 .addN | 1 => .imm8 .adcN | 2 => .imm8 .subN | 3 => .imm8 .sbcN
  | 4 => .imm8 .andN | 5 => .imm8 .xorN | 6 => .imm8 .orN | 7 => .imm8 .cpN
  | _ => .noRow

/-- The ALU operations (R116) on `(XY+d)`. -/
def aluMemXy (xy : XY) : Nat → Form
  | 0 => .imm8 (.addMemXy xy) | 1 => .imm8 (.adcMemXy xy) | 2 => .imm8 (.subMemXy xy) | 3 => .imm8 (.sbcMemXy xy)
  | 4 => .imm8 (.andMemXy xy) | 5 => .imm8 (.xorMemXy xy) | 6 => .imm8 (.orMemXy xy) | 7 => .imm8 (.cpMemXy xy)
  | _ => .noRow

/-- The ALU operations (R116) on a half of an index register. -/
def aluXyHalf (xy : XY) (j : Half) : Nat → Form
  | 0 => .plain (.addXyHalf xy j) | 1 => .plain (.adcXyHalf xy j) | 2 => .plain (.subXyHalf xy j)
  | 3 => .plain (.sbcXyHalf xy j) | 4 => .plain (.andXyHalf xy j) | 5 => .plain (.xorXyHalf xy j)
  | 6 => .plain (.orXyHalf xy j) | 7 => .plain (.cpXyHalf xy j)
  | _ => .noRow

/-- Opcodes `00yyyzzz` of the unprefixed page (R121). -/
def mainForm0 (op : Byte) : Form :=
  match opZ op, opY op with
  | 0, 0 => .plain .nop
  | 0, 1 => .plain .exAfAf
  | 0, 2 => .imm8 .djnz
  | 0, 3 => .imm8 .jr
  | 0, 4 => .imm8 .jrNz
  | 0, 5 => .imm8 .jrZ
  | 0, 6 => .imm8 .jrNc
  | 0, 7 => .imm8 .jrC
  | 1, _ => if opQ op = 0 then .imm16 (.ldDdNn (DD.ofCode (opP op))) else .plain (.addHlSs (DD.ofCode (opP op)))
  | 2, 0 => .plain .ldMemBcA
  | 2, 1 => .plain .ldAMemBc
  | 2, 2 => .plain .ldMemDeA
  | 2, 3 => .plain .ldAMemDe
  | 2, 4 => .imm16 .ldMemNnHl
  | 2, 5 => .imm16 .ldHlMemNn
  | 2, 6 => .imm16 .ldMemNnA
  | 2, 7 => .imm16 .ldAMemNn
  | 3, _ => if opQ op = 0 then .plain (.incSs (DD.ofCode (opP op))) else .plain (.decSs (DD.ofCode (opP op)))
  | 4, y => match R8.ofCode y with
    | some r => .plain (.incR r)
    | none => .plain .incMemHl
  | 5, y => match R8.ofCode y with
    | some r => .plain (.decR r)
    | none => .plain .decMemHl
  | 6, y => match R8.ofCode y with
    | some r => .imm8 (.ldRN r)
    | none => .imm8 .ldMemHlN
  | 7, 0 => .plain .rlca
  | 7, 1 => .plain .rrca
  | 7, 2 => .plain .rla
  | 7, 3 => .plain .rra
  | 7, 4 => .plain .daa
  | 7, 5 => .plain .cpl
  | 7, 6 => .plain .scf
  | 7, 7 => .plain .ccf
  | _, _ => .noRow

/-- Opcodes `11yyyzzz` of the unprefixed page (R121), the four page selectors apart (R111). -/
def mainForm3 (op : Byte) : Form :=
  match opZ op, opY op with
  | 0, y => .plain (.retCc (Cond.ofCode y))
  | 1, 1 => .plain .ret
  | 1, 3 => .plain .exx
  | 1, 5 => .plain .jpHl
  | 1, 7 => .plain .ldSpHl
  | 1, _ => .plain (.popQq (QQ.ofCode (opP op)))
  | 2, y => .imm16 (.jpCcNn (Cond.ofCode y))
  | 3, 0 => .imm16 .jpNn
  | 3, 2 => .imm8 .outNA
  | 3, 3 => .imm8 .inAN
  | 3, 4 => .plain .exSpHl
  | 3, 5 => .plain .exDeHl
  | 3, 6 => .plain .di
  | 3, 7 => .plain .ei
  | 4, y => .imm16 (.callCcNn (Cond.ofCode y))
  | 5, 1 => .imm16 .callNn
  | 5, _ => if opQ op = 0 then .plain (.pushQq (QQ.ofCode (opP op))) else .noRow
  | 6, y => aluN y
  | 7, _ => .plain (.rst (op.extractLsb' 3 3))
  | _, _ => .noRow

/-- The unprefixed page (R121). -/
def mainForm (op : Byte) : Form :=
  match opX op with
  | 0 => mainForm0 op
  | 1 => match R8.ofCode (opY op), R8.ofCode (opZ op) with
    | some r, some r' => .plain (.ldRR r r')
    | some r, none => .plain (.ldRMemHl r)
    | none, some r => .plain (.ldMemHlR r)
    | none, none => .plain .halt
  | 2 => match R8.ofCode (opZ op) with
    | some r => aluR r (opY op)
    | none => aluMemHl (opY op)
  | _ => mainForm3 op

/-- Rotates and shifts (R117) on a register. -/
def rotR (r : R8) : Nat → Form
  | 0 => .plain (.rlcR r) | 1 => .plain (.rrcR r) | 2 => .plain (.rlR r) | 3 => .plain (.rrR r)
  | 4 => .plain (.slaR r) | 5 => .plain (.sraR r) | 6 => .plain (.sllR r) | 7 => .plain (.srlR r)
  | _ => .noRow

/-- Rotates and shifts (R117) on `(HL)`. -/
def rotMemHl : Nat → Form
  | 0 => .plain .rlcMemHl | 1 => .plain .rrcMemHl | 2 => .plain .rlMemHl | 3 => .plain .rrMemHl
  | 4 => .plain .slaMemHl | 5 => .plain .sraMemHl | 6 => .plain .sllMemHl | 7 => .plain .srlMemHl
  | _ => .noRow

/-- The CB page (R131). -/
def cbForm (op : Byte) : Form :=
  match opX op, R8.ofCode (opZ op) with
  | 0, some r => rotR r (opY op)
  | 0, none => rotMemHl (opY op)
  | 1, some r => .plain (.bitR (op.extractLsb' 3 3) r)
  | 1, none => .plain (.bitMemHl (op.extractLsb' 3 3))
  | 2, some r => .plain (.resR (op.extractLsb' 3 3) r)
  | 2, none => .plain (.resMemHl (op.extractLsb' 3 3))
  | 3, some r => .plain (.setR (op.extractLsb' 3 3) r)
  | 3, none => .plain (.setMemHl (op.extractLsb' 3 3))
  | _, _ => .noRow

/-- Second bytes 0x40 to 0x7F of the ED page (R125, duplicates of R126 included). -/
def edForm1 (op : Byte) : Form :=
  match opZ op, opY op with
  | 0, y => match R8.ofCode y with
    | some r => .plain (.inRC r)
    | none => .plain .inC
  | 1, y => match R8.ofCode y with
    | some r => .plain (.outCR r)
    | none => .plain .outC0
  | 2, _ => if opQ op = 0 then .plain (.sbcHlSs (DD.ofCode (opP op))) else .plain (.adcHlSs (DD.ofCode (opP op)))
  | 3, _ => if opQ op = 0 then .imm16 (.ldMemNnDd (DD.ofCode (opP op))) else .imm16 (.ldDdMemNn (DD.ofCode (opP op)))
  | 4, _ => .plain (.neg (op.extractLsb' 3 3))
  | 5, 1 => .plain .reti
  | 5, _ => .plain (.retn (op.extractLsb' 3 3))
  | 6, 2 | 6, 6 => .plain (.im1 (op.extractLsb' 5 1))
  | 6, 3 | 6, 7 => .plain (.im2 (op.extractLsb' 5 1))
  | 6, _ => .plain (.im0 (op.extractLsb' 5 1) (op.extractLsb' 3 1))
  | 7, 0 => .plain .ldIA
  | 7, 1 => .plain .ldRA
  | 7, 2 => .plain .ldAI
  | 7, 3 => .plain .ldAR
  | 7, 4 => .plain .rrd
  | 7, 5 => .plain .rld
  | 7, 6 | 7, 7 => .plain (.nopEd7 (op.extractLsb' 3 1))
  | _, _ => .noRow

/-- Second bytes 0x80 to 0xBF of the ED page: the block group and no-operations (R125). -/
def edForm2 (op : Byte) : Form :=
  match opY op, opZ op with
  | 4, 0 => .plain .ldi
  | 4, 1 => .plain .cpi
  | 4, 2 => .plain .ini
  | 4, 3 => .plain .outi
  | 5, 0 => .plain .ldd
  | 5, 1 => .plain .cpd
  | 5, 2 => .plain .ind
  | 5, 3 => .plain .outd
  | 6, 0 => .plain .ldir
  | 6, 1 => .plain .cpir
  | 6, 2 => .plain .inir
  | 6, 3 => .plain .otir
  | 7, 0 => .plain .lddr
  | 7, 1 => .plain .cpdr
  | 7, 2 => .plain .indr
  | 7, 3 => .plain .otdr
  | 0, _ | 1, _ | 2, _ | 3, _ => .plain (.nopEd8 (op.extractLsb' 0 5))
  | _, _ => .plain (.nopEdA (op.extractLsb' 3 2) (op.extractLsb' 0 2))

/-- The ED page (R125). -/
def edForm (op : Byte) : Form :=
  match opX op with
  | 0 => .plain (.nopEd0 (op.extractLsb' 0 6))
  | 1 => edForm1 op
  | 2 => edForm2 op
  | _ => .plain (.nopEdC (op.extractLsb' 0 6))

/-- `IDX_SET` (R124): the second bytes for which a DD or FD byte changes the instruction. -/
def idxSet : List Byte :=
  [0x09, 0x19, 0x29, 0x39, 0x21, 0x22, 0x23, 0x24, 0x25, 0x26, 0x2A, 0x2B, 0x2C, 0x2D, 0x2E, 0x34, 0x35, 0x36]
  ++ [0x44, 0x45, 0x46, 0x4C, 0x4D, 0x4E, 0x54, 0x55, 0x56, 0x5C, 0x5D, 0x5E]
  ++ [0x60, 0x61, 0x62, 0x63, 0x64, 0x65, 0x66, 0x67, 0x68, 0x69, 0x6A, 0x6B, 0x6C, 0x6D, 0x6E, 0x6F]
  ++ [0x70, 0x71, 0x72, 0x73, 0x74, 0x75, 0x77, 0x7C, 0x7D, 0x7E]
  ++ [0x84, 0x85, 0x86, 0x8C, 0x8D, 0x8E, 0x94, 0x95, 0x96, 0x9C, 0x9D, 0x9E]
  ++ [0xA4, 0xA5, 0xA6, 0xAC, 0xAD, 0xAE, 0xB4, 0xB5, 0xB6, 0xBC, 0xBD, 0xBE]
  ++ [0xCB, 0xE1, 0xE3, 0xE5, 0xE9, 0xF9]

/-- The DD/FD page (R122), for a second byte of `IDX_SET` other than 0xCB. -/
def xyForm (xy : XY) (op : Byte) : Form :=
  match opX op with
  | 0 => match opZ op, opY op with
    | 1, 4 => .imm16 (.ldXyNn xy)
    | 1, _ => if opQ op = 1 then .plain (.addXyPp xy (PP.ofCode (opP op))) else .noRow
    | 2, 4 => .imm16 (.ldMemNnXy xy)
    | 2, 5 => .imm16 (.ldXyMemNn xy)
    | 3, 4 => .plain (.incXy xy)
    | 3, 5 => .plain (.decXy xy)
    | 4, 4 => .plain (.incXyHalf xy .hi)
    | 4, 5 => .plain (.incXyHalf xy .lo)
    | 4, 6 => .imm8 (.incMemXy xy)
    | 5, 4 => .plain (.decXyHalf xy .hi)
    | 5, 5 => .plain (.decXyHalf xy .lo)
    | 5, 6 => .imm8 (.decMemXy xy)
    | 6, 4 => .imm8 (.ldXyHalfN xy .hi)
    | 6, 5 => .imm8 (.ldXyHalfN xy .lo)
    | 6, 6 => .imm88 (.ldMemXyN xy)
    | _, _ => .noRow
  | 1 => match R8.ofCode (opY op), R8.ofCode (opZ op), P8.ofCode (opY op), P8.ofCode (opZ op) with
    | some r, none, _, _ => .imm8 (.ldRMemXy xy r)
    | none, some r, _, _ => .imm8 (.ldMemXyR xy r)
    | _, _, some p, some p' => .plain (.ldPP xy p p')
    | _, _, _, _ => .noRow
  | 2 => match opZ op with
    | 4 => aluXyHalf xy .hi (opY op)
    | 5 => aluXyHalf xy .lo (opY op)
    | 6 => aluMemXy xy (opY op)
    | _ => .noRow
  | _ => match opZ op, opY op with
    | 1, 4 => .plain (.popXy xy)
    | 3, 4 => .plain (.exSpXy xy)
    | 5, 4 => .plain (.pushXy xy)
    | 1, 5 => .plain (.jpXy xy)
    | 1, 7 => .plain (.ldSpXy xy)
    | _, _ => .noRow

/-- Rotates and shifts (R117) on `(XY+d)`, without a register copy. -/
def rotMemXy (xy : XY) (d : Byte) : Nat → Form
  | 0 => .plain (.rlcMemXy xy d) | 1 => .plain (.rrcMemXy xy d) | 2 => .plain (.rlMemXy xy d)
  | 3 => .plain (.rrMemXy xy d) | 4 => .plain (.slaMemXy xy d) | 5 => .plain (.sraMemXy xy d)
  | 6 => .plain (.sllMemXy xy d) | 7 => .plain (.srlMemXy xy d)
  | _ => .noRow

/-- Rotates and shifts (R117) on `(XY+d)`, the result copied into a register (R123). -/
def rotMemXyR (xy : XY) (d : Byte) (r : R8) : Nat → Form
  | 0 => .plain (.rlcMemXyR xy d r) | 1 => .plain (.rrcMemXyR xy d r) | 2 => .plain (.rlMemXyR xy d r)
  | 3 => .plain (.rrMemXyR xy d r) | 4 => .plain (.slaMemXyR xy d r) | 5 => .plain (.sraMemXyR xy d r)
  | 6 => .plain (.sllMemXyR xy d r) | 7 => .plain (.srlMemXyR xy d r)
  | _ => .noRow

/-- The DDCB/FDCB page (R123): the displacement has been read, then the opcode byte. -/
def xycbForm (xy : XY) (d op : Byte) : Form :=
  match opX op, R8.ofCode (opZ op) with
  | 0, none => rotMemXy xy d (opY op)
  | 0, some r => rotMemXyR xy d r (opY op)
  | 1, _ => .plain (.bitMemXy xy (op.extractLsb' 3 3) d (op.extractLsb' 0 3))
  | 2, none => .plain (.resMemXy xy (op.extractLsb' 3 3) d)
  | 2, some r => .plain (.resMemXyR xy (op.extractLsb' 3 3) d r)
  | 3, none => .plain (.setMemXy xy (op.extractLsb' 3 3) d)
  | 3, some r => .plain (.setMemXyR xy (op.extractLsb' 3 3) d r)
  | _, _ => .noRow

/-- Complete a form from the operand bytes that follow the opcode (R118, R120). -/
def Form.complete : Form → List Byte → Except DecodeError (Instr × List Byte)
  | .noRow, _ => .error .noRow
  | .plain i, bs => .ok (i, bs)
  | .imm8 f, n :: bs => .ok (f n, bs)
  | .imm16 f, lo :: hi :: bs => .ok (f (wordOf lo hi), bs)
  | .imm88 f, d :: n :: bs => .ok (f d n, bs)
  | .imm8 _, [] | .imm16 _, [] | .imm16 _, [_] | .imm88 _, [] | .imm88 _, [_] => .error .truncated

/-- What follows a DD or FD byte (R111, R123, R124): the byte after it decides, and stays unread when it is not in
`IDX_SET`. -/
def decodeXy (xy : XY) : List Byte → Except DecodeError (Instr × List Byte)
  | [] => .error .truncated
  | op :: bs =>
    if idxSet.contains op then
      if op = 0xCB then
        match bs with
        | d :: op' :: bs' => (xycbForm xy d op').complete bs'
        | _ => .error .truncated
      else (xyForm xy op).complete bs
    else .ok (.noni xy, op :: bs)

/-- The instruction at the start of a list of bytes, and the bytes after it (R110, R111). -/
def decode : List Byte → Except DecodeError (Instr × List Byte)
  | [] => .error .truncated
  | b0 :: bs =>
    if b0 = 0xCB then
      match bs with
      | op :: bs' => (cbForm op).complete bs'
      | [] => .error .truncated
    else if b0 = 0xED then
      match bs with
      | op :: bs' => (edForm op).complete bs'
      | [] => .error .truncated
    else if b0 = 0xDD then decodeXy .ix bs
    else if b0 = 0xFD then decodeXy .iy bs
    else (mainForm b0).complete bs

/-! ### Words numbered as the opcode table numbers them -/

/-- Byte `k` of a number, byte 0 the least significant. -/
def byteOfNat (w k : Nat) : Byte := BitVec.ofNat 8 (w / 2 ^ (8 * k))

/-- Put four bytes in the form of a fetch window: bytes the table gives no bits are 0. -/
def window (b0 b1 b2 b3 : Byte) : List Byte := [b0, b1, b2, b3]

/-- The bytes of a number of `nbits` bits, in address order, read as the table's `match` and `mask` are written: first
byte most significant (R130). -/
def bytesFirstHigh (nbits w : Nat) : List Byte :=
  match nbits / 8 with
  | 0 => window 0 0 0 0
  | 1 => window (byteOfNat w 0) 0 0 0
  | 2 => window (byteOfNat w 1) (byteOfNat w 0) 0 0
  | 3 => window (byteOfNat w 2) (byteOfNat w 1) (byteOfNat w 0) 0
  | _ => window (byteOfNat w 3) (byteOfNat w 2) (byteOfNat w 1) (byteOfNat w 0)

/-- The bytes of a number of `nbits` bits, in address order, first byte least significant. -/
def bytesFirstLow (nbits w : Nat) : List Byte :=
  match nbits / 8 with
  | 0 => window 0 0 0 0
  | 1 => window (byteOfNat w 0) 0 0 0
  | 2 => window (byteOfNat w 0) (byteOfNat w 1) 0 0
  | 3 => window (byteOfNat w 0) (byteOfNat w 1) (byteOfNat w 2) 0
  | _ => window (byteOfNat w 0) (byteOfNat w 1) (byteOfNat w 2) (byteOfNat w 3)

/-- Whether four bytes begin with an instruction of `nbits` bits. -/
def fitsWindow (nbits : Nat) (bs : List Byte) : Bool :=
  match decode bs with
  | .ok (i, _) => i.length * 8 == nbits
  | .error _ => false

/-- The four bytes, in address order, of an instruction whose bits are `w`. The table's own numbering (first byte most
significant, R130) is taken; where those bytes are no instruction of `nbits` bits the other order is (log 8). -/
def tableBytes (nbits w : Nat) : List Byte :=
  if fitsWindow nbits (bytesFirstHigh nbits w) then bytesFirstHigh nbits w
  else if fitsWindow nbits (bytesFirstLow nbits w) then bytesFirstLow nbits w
  else bytesFirstHigh nbits w

/-- The instruction the decoder reads from an instruction whose bits are `w`, numbered as the opcode table numbers
them. -/
def decodeTableWord (nbits w : Nat) : Option Instr :=
  match decode (tableBytes nbits w) with
  | .ok (i, _) => some i
  | .error _ => none

end Sys2Proof
end

