-- ==== Sys2Proof/Machine/Flags.lean ====
section
/-! DEFINITION. The flag and ALU functions (43_arith8 R250 to R256, 46_rotate_shift R364, and the flag rules of the
other families): pure functions of values, each returning a complete flag byte. F is S7 Z6 Y5 H4 X3 PV2 N1 C0
(10_state R26). -/

namespace Sys2Proof.Machine

/-- The flag byte with the given bits (10_state R26). -/
def mkF (fS fZ fY fH fX fPV fN fC : Bool) : Byte :=
  BitVec.ofBool fS ++ BitVec.ofBool fZ ++ BitVec.ofBool fY ++ BitVec.ofBool fH ++ BitVec.ofBool fX
    ++ BitVec.ofBool fPV ++ BitVec.ofBool fN ++ BitVec.ofBool fC

/-- `F.S` (10_state R26). -/
def flagS (f : Byte) : Bool := f.getLsbD 7
/-- `F.Z` (10_state R26). -/
def flagZ (f : Byte) : Bool := f.getLsbD 6
/-- `F.Y` (10_state R26). -/
def flagY (f : Byte) : Bool := f.getLsbD 5
/-- `F.H` (10_state R26). -/
def flagH (f : Byte) : Bool := f.getLsbD 4
/-- `F.X` (10_state R26). -/
def flagX (f : Byte) : Bool := f.getLsbD 3
/-- `F.PV` (10_state R26). -/
def flagPV (f : Byte) : Bool := f.getLsbD 2
/-- `F.N` (10_state R26). -/
def flagN (f : Byte) : Bool := f.getLsbD 1
/-- `F.C` (10_state R26). -/
def flagC (f : Byte) : Bool := f.getLsbD 0

/-- `parity(v)` (00_scope R9): true when an even number of bits are 1. -/
def parity (v : Byte) : Bool :=
  !(v.getLsbD 0 ^^ v.getLsbD 1 ^^ v.getLsbD 2 ^^ v.getLsbD 3 ^^ v.getLsbD 4 ^^ v.getLsbD 5 ^^ v.getLsbD 6
    ^^ v.getLsbD 7)

/-- `sz53(v)` (R250). -/
def sz53 (v : Byte) : Byte := (v &&& 0xA8) ||| (if v = 0 then 0x40 else 0)

/-- `sz53p(v)` (R250). -/
def sz53p (v : Byte) : Byte := sz53 v ||| (if parity v then 0x04 else 0)

/-- `add8(a, b, c)` (R251): the sum and its flags. -/
def add8 (a b : Byte) (c : Bool) : Byte × Byte :=
  let s := a.toNat + b.toNat + c.toNat
  let r := BitVec.ofNat 8 s
  (r, mkF (r.getLsbD 7) (r == 0) (r.getLsbD 5) (decide (a.toNat % 16 + b.toNat % 16 + c.toNat > 0x0F)) (r.getLsbD 3)
    (a.getLsbD 7 == b.getLsbD 7 && r.getLsbD 7 != a.getLsbD 7) false (decide (s > 0xFF)))

/-- `sub8(a, b, c)` (R252): the difference and its flags; a borrow is `a < b + c` on naturals. -/
def sub8 (a b : Byte) (c : Bool) : Byte × Byte :=
  let r := a - b - BitVec.ofNat 8 c.toNat
  (r, mkF (r.getLsbD 7) (r == 0) (r.getLsbD 5) (decide (a.toNat % 16 < b.toNat % 16 + c.toNat)) (r.getLsbD 3)
    (a.getLsbD 7 != b.getLsbD 7 && r.getLsbD 7 != a.getLsbD 7) true (decide (a.toNat < b.toNat + c.toNat)))

/-- `and8(a, b)` (R253). -/
def and8 (a b : Byte) : Byte × Byte := (a &&& b, sz53p (a &&& b) ||| 0x10)

/-- `xor8(a, b)` (R253). -/
def xor8 (a b : Byte) : Byte × Byte := (a ^^^ b, sz53p (a ^^^ b))

/-- `or8(a, b)` (R253). -/
def or8 (a b : Byte) : Byte × Byte := (a ||| b, sz53p (a ||| b))

/-- `cp8(a, b)` (R254): the flags of the difference, Y and X from the operand. -/
def cp8 (a b : Byte) : Byte :=
  let f := (sub8 a b false).2
  mkF (flagS f) (flagZ f) (b.getLsbD 5) (flagH f) (b.getLsbD 3) (flagPV f) (flagN f) (flagC f)

/-- `inc8(v, F)` (R255): the carry flag is kept. -/
def inc8 (v f : Byte) : Byte × Byte :=
  let r := v + 1
  (r, sz53 r ||| (f &&& 0x01) ||| (if r &&& 0x0F = 0 then 0x10 else 0) ||| (if r = 0x80 then 0x04 else 0))

/-- `dec8(v, F)` (R256): the carry flag is kept, N is 1. -/
def dec8 (v f : Byte) : Byte × Byte :=
  let r := v - 1
  (r, sz53 r ||| (f &&& 0x01) ||| 0x02 ||| (if r &&& 0x0F = 0x0F then 0x10 else 0)
    ||| (if r = 0x7F then 0x04 else 0))

/-! The eight operations of `alu8` (R257): the new A and the new F from A, the operand and `F.C`. -/

/-- ALU operation 0, `ADD A,v` (R257). -/
def aluAdd (a v : Byte) (_c : Bool) : Byte × Byte := add8 a v false
/-- ALU operation 1, `ADC A,v` (R257). -/
def aluAdc (a v : Byte) (c : Bool) : Byte × Byte := add8 a v c
/-- ALU operation 2, `SUB v` (R257). -/
def aluSub (a v : Byte) (_c : Bool) : Byte × Byte := sub8 a v false
/-- ALU operation 3, `SBC A,v` (R257). -/
def aluSbc (a v : Byte) (c : Bool) : Byte × Byte := sub8 a v c
/-- ALU operation 4, `AND v` (R257). -/
def aluAnd (a v : Byte) (_c : Bool) : Byte × Byte := and8 a v
/-- ALU operation 5, `XOR v` (R257). -/
def aluXor (a v : Byte) (_c : Bool) : Byte × Byte := xor8 a v
/-- ALU operation 6, `OR v` (R257). -/
def aluOr (a v : Byte) (_c : Bool) : Byte × Byte := or8 a v
/-- ALU operation 7, `CP v` (R257): A is kept. -/
def aluCp (a v : Byte) (_c : Bool) : Byte × Byte := (a, cp8 a v)

/-! The eight operations of `rotop` (R364): the result and its flags from the value and `F.C`. -/

/-- The result of a rotate or shift with its flags (R364): `sz53p(r) | c`. -/
def rotResult (r : Byte) (c : Bool) : Byte × Byte := (r, sz53p r ||| (if c then 0x01 else 0))

/-- `rotop` 0, RLC (R364). -/
def rlc8 (v : Byte) (_c : Bool) : Byte × Byte := rotResult (v.extractLsb' 0 7 ++ v.extractLsb' 7 1) (v.getLsbD 7)
/-- `rotop` 1, RRC (R364). -/
def rrc8 (v : Byte) (_c : Bool) : Byte × Byte := rotResult (v.extractLsb' 0 1 ++ v.extractLsb' 1 7) (v.getLsbD 0)
/-- `rotop` 2, RL (R364). -/
def rl8 (v : Byte) (c : Bool) : Byte × Byte := rotResult (v.extractLsb' 0 7 ++ BitVec.ofBool c) (v.getLsbD 7)
/-- `rotop` 3, RR (R364). -/
def rr8 (v : Byte) (c : Bool) : Byte × Byte := rotResult (BitVec.ofBool c ++ v.extractLsb' 1 7) (v.getLsbD 0)
/-- `rotop` 4, SLA (R364). -/
def sla8 (v : Byte) (_c : Bool) : Byte × Byte := rotResult (v.extractLsb' 0 7 ++ 0#1) (v.getLsbD 7)
/-- `rotop` 5, SRA (R364): bit 7 keeps its value. -/
def sra8 (v : Byte) (_c : Bool) : Byte × Byte := rotResult (v.extractLsb' 7 1 ++ v.extractLsb' 1 7) (v.getLsbD 0)
/-- `rotop` 6, SLL (R364): bit 0 becomes 1. -/
def sll8 (v : Byte) (_c : Bool) : Byte × Byte := rotResult (v.extractLsb' 0 7 ++ 1#1) (v.getLsbD 7)
/-- `rotop` 7, SRL (R364). -/
def srl8 (v : Byte) (_c : Bool) : Byte × Byte := rotResult (0#1 ++ v.extractLsb' 1 7) (v.getLsbD 0)

/-- The flags of RLCA, RLA, RRCA, RRA (46_rotate_shift R360 to R363): S, Z, PV kept, Y and X from the new A. -/
def accRotFlags (f a : Byte) (c : Bool) : Byte :=
  mkF (flagS f) (flagZ f) (a.getLsbD 5) false (a.getLsbD 3) (flagPV f) false c

/-- `DAA` (44_general_control R320): the new A and the new F. -/
def daa8 (a f : Byte) : Byte × Byte :=
  let low : Byte := if flagH f || decide (a.toNat % 16 > 9) then 0x06 else 0
  let adj : Byte := low ||| (if flagC f || decide (a.toNat > 0x99) then 0x60 else 0)
  let c := flagC f || decide (a.toNat > 0x99)
  let rf := if flagN f then sub8 a adj false else add8 a adj false
  (rf.1, sz53p rf.1 ||| (if flagH rf.2 then 0x10 else 0) ||| (if flagN f then 0x02 else 0) ||| (if c then 0x01 else 0))

/-- The flags of `CPL` (R321), `a` the complemented A. -/
def cplFlags (f a : Byte) : Byte :=
  mkF (flagS f) (flagZ f) (a.getLsbD 5) true (a.getLsbD 3) (flagPV f) true (flagC f)

/-- The flags of `CCF` (R323). -/
def ccfFlags (f a : Byte) : Byte :=
  mkF (flagS f) (flagZ f) (a.getLsbD 5) (flagC f) (a.getLsbD 3) (flagPV f) false (!flagC f)

/-- The flags of `SCF` (R324). -/
def scfFlags (f a : Byte) : Byte :=
  mkF (flagS f) (flagZ f) (a.getLsbD 5) false (a.getLsbD 3) (flagPV f) false true

/-- The flags of `LD A,I` and `LD A,R` (40_load8 R164): PV is IFF2, C is kept. -/
def ldAirFlags (f a : Byte) (iff2 : Bool) : Byte := (f &&& 0x01) ||| sz53 a ||| (if iff2 then 0x04 else 0)

/-- The flags of `IN r,(C)` and `IN (C)` (49_io R451), of `RLD` and `RRD` (46_rotate_shift R397): C is kept. -/
def keepCFlags (f v : Byte) : Byte := (f &&& 0x01) ||| sz53p v

/-- `BIT` (47_bit R400 to R402): `v` the byte tested, `yx` the byte whose bits 5 and 3 become Y and X. -/
def bitFlags (f v : Byte) (bit : BitVec 3) (yx : Byte) : Byte :=
  let t := v.getLsbD bit.toNat
  mkF (bit == 7 && t) (!t) (yx.getLsbD 5) true (yx.getLsbD 3) (!t) false (flagC f)

/-- `1 << b` within a byte (47_bit). -/
def bitMask (bit : BitVec 3) : Byte := (1 : Byte) <<< bit.toNat

/-- `v | (1 << b)` (47_bit R403). -/
def setBit8 (v : Byte) (bit : BitVec 3) : Byte := v ||| bitMask bit

/-- `v & ~(1 << b)` (47_bit R407). -/
def resBit8 (v : Byte) (bit : BitVec 3) : Byte := v &&& ~~~(bitMask bit)

/-- `ADD HL,ss` and `ADD XY,pp` (45_arith16 R340): the sum and F; S, Z, PV kept. -/
def add16 (a b : Word) (f : Byte) : Word × Byte :=
  let s := a.toNat + b.toNat
  let r := BitVec.ofNat 16 s
  (r, mkF (flagS f) (flagZ f) (r.getLsbD 13) (decide (a.toNat % 4096 + b.toNat % 4096 > 0x0FFF)) (r.getLsbD 11)
    (flagPV f) false (decide (s > 0xFFFF)))

/-- `ADC HL,ss` (45_arith16 R341): the sum and all flags. -/
def adc16 (a b : Word) (c : Bool) : Word × Byte :=
  let s := a.toNat + b.toNat + c.toNat
  let r := BitVec.ofNat 16 s
  (r, mkF (r.getLsbD 15) (r == 0) (r.getLsbD 13) (decide (a.toNat % 4096 + b.toNat % 4096 + c.toNat > 0x0FFF))
    (r.getLsbD 11) (a.getLsbD 15 == b.getLsbD 15 && r.getLsbD 15 != a.getLsbD 15) false (decide (s > 0xFFFF)))

/-- `SBC HL,ss` (45_arith16 R342): the difference and all flags. -/
def sbc16 (a b : Word) (c : Bool) : Word × Byte :=
  let r := a - b - BitVec.ofNat 16 c.toNat
  (r, mkF (r.getLsbD 15) (r == 0) (r.getLsbD 13) (decide (a.toNat % 4096 < b.toNat % 4096 + c.toNat)) (r.getLsbD 11)
    (a.getLsbD 15 != b.getLsbD 15 && r.getLsbD 15 != a.getLsbD 15) true (decide (a.toNat < b.toNat + c.toNat)))

/-- The flags of `LDI`, `LDD` and their repeating forms (42_exchange_block R225): `v` the byte copied, `bc` the new
BC. -/
def ldBlockFlags (f a v : Byte) (bc : Word) : Byte :=
  let n := v + a
  mkF (flagS f) (flagZ f) (n.getLsbD 1) false (n.getLsbD 3) (bc != 0) false (flagC f)

/-- The flags of `CPI`, `CPD` and their repeating forms (42_exchange_block R229): `v` the byte compared, `bc` the new
BC. -/
def cpBlockFlags (f a v : Byte) (bc : Word) : Byte :=
  let rf := sub8 a v false
  let n := rf.1 - (if flagH rf.2 then 1 else 0)
  mkF (rf.1.getLsbD 7) (rf.1 == 0) (n.getLsbD 1) (flagH rf.2) (n.getLsbD 3) (bc != 0) true (flagC f)

/-- The flags of the block I/O instructions (49_io R453, R460): `b` the new B, `v` the byte moved, `k` the sum the
rule names. -/
def ioBlockFlags (b v : Byte) (k : Nat) : Byte :=
  sz53 b ||| (if v.getLsbD 7 then 0x02 else 0) ||| (if k > 255 then 0x11 else 0)
    ||| (if parity (BitVec.ofNat 8 (k % 8) ^^^ b) then 0x04 else 0)

end Sys2Proof.Machine
end

