-- ==== Sys2Proof/Config.lean ====
section
/-! DEFINITION. What an implementation fixes: the configuration record of 00_scope R5, and the one
free value of the spec, the byte an undecoded port reads as when nothing is assumed of it (60_exceptions
R546, D9). The record is a field of State (log 1): no step changes it, and a statement about every state
holds for every configuration. The numbers that go with a model (frame length, contention) are functions of
the record in Machine/Timing.lean. -/

namespace Sys2Proof

/-- `MODEL` of 00_scope R5: the 48K machine without paging or the 128K machine with it (D1). -/
inductive Model where
  | m48
  | m128
deriving DecidableEq, Repr

/-- `FLOATING_BUS` of 00_scope R5: what an undecoded port reads as (60_exceptions R546). -/
inductive FloatingBus where
  /-- one fixed byte (the spec's default is the constant 0xFF, D9) -/
  | constant (v : Byte)
  /-- nothing is assumed: the byte is `Config.freeBus` of the time, the port and the memory image -/
  | free
deriving DecidableEq, Repr

/-- The configuration record of 00_scope R5. `HAS_AY`, `FRAME_TSTATES`, `LINE_TSTATES`, `CONT_FIRST`,
`CONTENDED_PAGES` and the page counts follow from `model` (D2, D3, D7, D8). -/
structure Config where
  /-- `MODEL` (D1) -/
  model : Model
  /-- `INT_OFFSET` (D4): the frame T-state at which the frame interrupt is raised -/
  intOffset : Nat
  /-- `INT_HOLD` (D5): how long a raised request may be accepted, `none` until the next frame start -/
  intHold : Option Nat
  /-- `INT_BUS_BYTE` (D6): the byte on the bus during interrupt acknowledge -/
  intBusByte : Byte
  /-- `FLOATING_BUS` (D9) -/
  floatingBus : FloatingBus
  /-- what a configuration with `INT_OFFSET` other than 0 adds to `CONT_FIRST` (70_reset R613) -/
  contShift : Nat
deriving DecidableEq, Repr

/-- The spec's default configuration (00_scope R5: M48, O = 0, no finite hold, bus byte 0xFF, floating bus 0xFF). -/
def Config.default : Config where
  model := .m48
  intOffset := 0
  intHold := none
  intBusByte := 0xFF
  floatingBus := .constant 0xFF
  contShift := 0

/-- FREE VALUE (log 7): the byte an undecoded port reads as when the configuration says `free`, a function of
`frame_t`, the port address and the memory image (RAM and the paging latch), as D9 has it. No body: nothing can be
proved of its values. -/
opaque Config.freeBus (frameT : Nat) (port : Word) (ram : List Host.Cell) (paging : BitVec 6) : Byte

end Sys2Proof
end

