-- ==== Sys2Proof/Machine/Memory.lean ====
section
/-! DEFINITION. A bank of memory bytes as plain data: a list of (key, byte) pairs in one canonical form. The machine
has two banks (10_state R39): the ROM pages and the RAM pages; the key of byte `off` of page `p` is
`p * 16384 + off` (log 9). -/

namespace Sys2Proof.Machine

/-- A bank of bytes: keys strictly rising, no entry equal to what an unlisted key reads as. -/
abbrev Memory := List Host.Cell

/-- What a key that nothing has written reads as (log 3): DESIGN CHOICE, unsafe. The spec gives no contents for RAM at
construction (70_reset R601, D13) nor for the ROM image (00_scope R5). -/
def unlistedByte : Byte := 0x00

/-- The byte at a key. -/
def Memory.read : Memory → Nat → Byte
  | [], _ => unlistedByte
  | (a, v) :: m, k => if a = k then v else Memory.read m k

/-- A list that begins with a cell, unless the cell is what an unlisted key reads as. -/
def Memory.cons (k : Nat) (v : Byte) (m : Memory) : Memory := if v = unlistedByte then m else (k, v) :: m

/-- The bank after byte `v` is stored at key `k`; the canonical form is kept. -/
def Memory.write : Memory → Nat → Byte → Memory
  | [], k, v => Memory.cons k v []
  | (a, w) :: m, k, v =>
    if k < a then Memory.cons k v ((a, w) :: m)
    else if k = a then Memory.cons k v m
    else (a, w) :: Memory.write m k v

/-- The canonical form: every key is at least `lo`, keys rise strictly, no cell holds the unlisted byte. -/
def Memory.wfFrom : Nat → Memory → Bool
  | _, [] => true
  | lo, (a, v) :: m => decide (lo ≤ a) && (v != unlistedByte) && Memory.wfFrom (a + 1) m

/-- The canonical form of a bank. -/
def Memory.wf (m : Memory) : Bool := Memory.wfFrom 0 m

/-- Every key is below `n`: the bank has no byte outside its pages. -/
def Memory.below (m : Memory) (n : Nat) : Bool := m.all fun c => decide (c.1 < n)

/-- The bytes of `n` keys from key `k` on, in order. -/
def Memory.readRange (m : Memory) (k : Nat) : Nat → List Byte
  | 0 => []
  | n + 1 => m.read k :: Memory.readRange m (k + 1) n

/-- The bank that holds the bytes of a list from key `k` on and nothing else. -/
def Memory.ofBytes (k : Nat) : List Byte → Memory
  | [] => []
  | v :: vs => Memory.cons k v (Memory.ofBytes (k + 1) vs)

end Sys2Proof.Machine
end

