-- ==== Sys2Proof/Machine/State.lean ====
section
/-! DEFINITION. The state of the machine (10_state), as plain data, the reasons a step can stop, and the state right
after reset. Pairs and index halves are views of the fields (10_state R22, R23), written in Machine/Operands.lean. -/

namespace Sys2Proof.Machine

/-- The interrupt mode `IM` (10_state R31): three values, so no other can be reached. -/
inductive IntMode where
  | im0 | im1 | im2
deriving DecidableEq, Repr

/-- `int_state` (10_state R36, 60_exceptions R503). -/
inductive IntState where
  | idle | pending | serviced
deriving DecidableEq, Repr

/-- What the machine's `step` stands for (log 6, the model's own): `frames`, an iteration of the loop of `runFrame()`
(60_exceptions R520), frame ends and interrupt raises included; `single`, the host's bare `step()` (70_reset R603),
which has neither. -/
inductive Drive where
  | frames | single
deriving DecidableEq, Repr

/-- One entry of the port write log (10_state R44): the frame T-state, the port address, the byte. -/
structure LogEntry where
  t : Nat
  port : Word
  value : Byte
deriving DecidableEq, Repr

/-- Everything the spec gives the machine (10_state R20 to R44), one configuration record (00_scope R5) and the model's
own field `drive`. A name with a prime is the shadow register (10_state R21). -/
structure State where
  /-- A, the accumulator (R20) -/
  a : Byte
  /-- F, the flags: S7 Z6 Y5 H4 X3 PV2 N1 C0 (R20, R26) -/
  f : Byte
  b : Byte
  c : Byte
  d : Byte
  e : Byte
  h : Byte
  l : Byte
  a' : Byte
  f' : Byte
  b' : Byte
  c' : Byte
  d' : Byte
  e' : Byte
  h' : Byte
  l' : Byte
  /-- IX (R23) -/
  ix : Word
  /-- IY (R23) -/
  iy : Word
  /-- SP (R24) -/
  sp : Word
  /-- PC (R25) -/
  pc : Word
  /-- I, the interrupt vector register (R28) -/
  i : Byte
  /-- R, the refresh register: a 7-bit counter and bit 7 (R29) -/
  r : Byte
  /-- IFF1 (R30) -/
  iff1 : Bool
  /-- IFF2 (R30) -/
  iff2 : Bool
  /-- IM (R31) -/
  im : IntMode
  /-- `halted` (R32) -/
  halted : Bool
  /-- MEMPTR (R33) -/
  memptr : Word
  /-- `inhibit` (R34) -/
  inhibit : Bool
  /-- `nmi_pending` (R35) -/
  nmiPending : Bool
  /-- `int_state` (R36) -/
  intState : IntState
  /-- `frame_t` (R37) -/
  frameT : Nat
  /-- the ROM pages (R39): no instruction writes them -/
  rom : Memory
  /-- the RAM pages (R39) -/
  ram : Memory
  /-- the paging latch of `M128` (R40, 20_memory R83); 0 on `M48`, where nothing writes it -/
  paging : BitVec 6
  /-- `border` (R41) -/
  border : BitVec 3
  /-- `beeper` (R41) -/
  beeper : Bool
  /-- `mic` (R41) -/
  mic : Bool
  /-- `keyrow[0..7]` (R42): 0 means key pressed -/
  keyrow : Vector (BitVec 5) 8
  /-- `tape_in` (R42) -/
  tapeIn : Bool
  /-- `ay_sel` (R43) -/
  aySel : BitVec 4
  /-- `ay_reg[0..15]` (R43) -/
  ayReg : Vector Byte 16
  /-- the port write log of the current frame, oldest entry first (R44) -/
  log : List LogEntry
  /-- the configuration record (00_scope R5); no step changes it (log 1) -/
  cfg : Config
  /-- the model's own: what `step` stands for; no step changes it (log 6) -/
  drive : Drive
deriving DecidableEq, Repr

/-- The faults of the machine. The spec has no synchronous exception (60_exceptions R500). -/
inductive Fault where
  /-- 60_exceptions R501: the decoder found no instruction in the four bytes at PC. Raised by the step only. Safe: R127
  says it never happens, and the model's decoder never answers so (log 14). -/
  | decodeDefect
deriving DecidableEq, Repr

/-- The refusals of the machine. -/
inductive Refusal where
  /-- 60_exceptions R508, D20: a maskable interrupt is accepted in mode 0 and `INT_BUS_BYTE` is no RST opcode; the spec
  itself refuses. Raised by the interrupt response only, never by an instruction. Safe (log 13). -/
  | im0NonRst
  /-- The model has no meaning for the instruction yet. Safe. -/
  | notModelled (mnemonic : String)
deriving DecidableEq, Repr

/-- The state right after construction and reset (10_state R45, 70_reset R600, R601). A, F, B to L, the shadow set, IX,
IY and MEMPTR hold one named draw (log 2: DESIGN CHOICE, unsafe), RAM and ROM list no byte (log 3), the port latches
hold 0 (log 5: DESIGN CHOICE, unsafe). -/
def State.reset : State where
  a := 0xFF
  f := 0xFF
  b := 0xA5
  c := 0xA5
  d := 0xA5
  e := 0xA5
  h := 0xA5
  l := 0xA5
  a' := 0xA5
  f' := 0xA5
  b' := 0xA5
  c' := 0xA5
  d' := 0xA5
  e' := 0xA5
  h' := 0xA5
  l' := 0xA5
  ix := 0xA5A5
  iy := 0xA5A5
  sp := 0xFFFF
  pc := 0x0000
  i := 0x00
  r := 0x00
  iff1 := false
  iff2 := false
  im := .im0
  halted := false
  memptr := 0xA5A5
  inhibit := false
  nmiPending := false
  intState := .idle
  frameT := 0
  rom := []
  ram := []
  paging := 0
  border := 0
  beeper := false
  mic := false
  keyrow := #v[0x1F, 0x1F, 0x1F, 0x1F, 0x1F, 0x1F, 0x1F, 0x1F]
  tapeIn := false
  aySel := 0
  ayReg := #v[0, 0, 0, 0, 0, 0, 0, 0, 0, 0, 0, 0, 0, 0, 0, 0]
  log := []
  cfg := Config.default
  drive := .frames

end Sys2Proof.Machine
end

