-- ==== Sys2Proof/Machine/Operands.lean ====
section
/-! DEFINITION. The operand forms (30_encoding R113 to R115, R119, R120): views of the registers as pairs and halves
(10_state R22, R23), registers by code, conditions, the indexed address. None of them is state of its own. -/

namespace Sys2Proof.Machine

/-- Bits 15:8 of a word. -/
def hiByte (w : Word) : Byte := w.extractLsb' 8 8
/-- Bits 7:0 of a word. -/
def loByte (w : Word) : Byte := w.extractLsb' 0 8

/-- BC (10_state R22). -/
def State.bc (s : State) : Word := s.b ++ s.c
/-- DE (10_state R22). -/
def State.de (s : State) : Word := s.d ++ s.e
/-- HL (10_state R22). -/
def State.hl (s : State) : Word := s.h ++ s.l
/-- AF (10_state R22). -/
def State.af (s : State) : Word := s.a ++ s.f

/-- Write BC: both halves (10_state R22). -/
def setBc (v : Word) (s : State) : State := { s with b := hiByte v, c := loByte v }
/-- Write DE (10_state R22). -/
def setDe (v : Word) (s : State) : State := { s with d := hiByte v, e := loByte v }
/-- Write HL (10_state R22). -/
def setHl (v : Word) (s : State) : State := { s with h := hiByte v, l := loByte v }
/-- Write AF: all eight bits of F (10_state R22, 41_load16 R202). -/
def setAf (v : Word) (s : State) : State := { s with a := hiByte v, f := loByte v }

/-- Write SP (10_state R24). -/
def setSp (v : Word) (s : State) : State := { s with sp := v }

/-- Read an 8-bit register (30_encoding R113). -/
def getR8 (s : State) : R8 → Byte
  | .b => s.b | .c => s.c | .d => s.d | .e => s.e | .h => s.h | .l => s.l | .a => s.a

/-- Write an 8-bit register (30_encoding R113). -/
def setR8 (r : R8) (v : Byte) (s : State) : State :=
  match r with
  | .b => { s with b := v }
  | .c => { s with c := v }
  | .d => { s with d := v }
  | .e => { s with e := v }
  | .h => { s with h := v }
  | .l => { s with l := v }
  | .a => { s with a := v }

/-- Read a pair `dd` or `ss` (30_encoding R114). -/
def getDd (s : State) : DD → Word
  | .bc => s.bc | .de => s.de | .hl => s.hl | .sp => s.sp

/-- Write a pair `dd` or `ss` (30_encoding R114). -/
def setDd (p : DD) (v : Word) (s : State) : State :=
  match p with
  | .bc => setBc v s
  | .de => setDe v s
  | .hl => setHl v s
  | .sp => { s with sp := v }

/-- Read a pair `qq` (30_encoding R114). -/
def getQq (s : State) : QQ → Word
  | .bc => s.bc | .de => s.de | .hl => s.hl | .af => s.af

/-- Write a pair `qq` (30_encoding R114). -/
def setQq (p : QQ) (v : Word) (s : State) : State :=
  match p with
  | .bc => setBc v s
  | .de => setDe v s
  | .hl => setHl v s
  | .af => setAf v s

/-- Read the index register a DD or FD byte selects (00_scope R10). -/
def getXy (s : State) : XY → Word
  | .ix => s.ix | .iy => s.iy

/-- Write the index register a DD or FD byte selects. -/
def setXy (xy : XY) (v : Word) (s : State) : State :=
  match xy with
  | .ix => { s with ix := v }
  | .iy => { s with iy := v }

/-- Read a pair `pp` or `rr`: code 2 is the index register itself (30_encoding R114). -/
def getPp (s : State) (xy : XY) : PP → Word
  | .bc => s.bc | .de => s.de | .xy => getXy s xy | .sp => s.sp

/-- Read a half of an index register (10_state R23). -/
def getHalf (s : State) (xy : XY) : Half → Byte
  | .hi => hiByte (getXy s xy)
  | .lo => loByte (getXy s xy)

/-- Write a half of an index register; the other half stays (40_load8 R169). -/
def setHalf (xy : XY) (j : Half) (v : Byte) (s : State) : State :=
  match j with
  | .hi => setXy xy (v ++ loByte (getXy s xy)) s
  | .lo => setXy xy (hiByte (getXy s xy) ++ v) s

/-- Read an operand of `LD p,p'` (40_load8 R168). -/
def getP8 (s : State) (xy : XY) : P8 → Byte
  | .b => s.b | .c => s.c | .d => s.d | .e => s.e | .xyh => getHalf s xy .hi | .xyl => getHalf s xy .lo | .a => s.a

/-- Write an operand of `LD p,p'` (40_load8 R168). -/
def setP8 (xy : XY) (p : P8) (v : Byte) (s : State) : State :=
  match p with
  | .b => { s with b := v }
  | .c => { s with c := v }
  | .d => { s with d := v }
  | .e => { s with e := v }
  | .xyh => setHalf xy .hi v s
  | .xyl => setHalf xy .lo v s
  | .a => { s with a := v }

/-- `cond(c)` (30_encoding R115). -/
def condHolds (f : Byte) : Cond → Bool
  | .nz => !flagZ f | .z => flagZ f | .nc => !flagC f | .c => flagC f
  | .po => !flagPV f | .pe => flagPV f | .p => !flagS f | .m => flagS f

/-- `sext_16(v)` (00_scope R9). -/
def sext16 (v : Byte) : Word := v.signExtend 16

/-- The indexed address `(XY + sext_16(d)) mod 65536` (30_encoding R119). -/
def indexAddr (s : State) (xy : XY) (d : Byte) : Word := getXy s xy + sext16 d

/-- The restart address `8·t` (30_encoding R119). -/
def restartAddr (t : BitVec 3) : Word := 0#10 ++ t ++ 0#3

/-- The `ir` address of a bus-cycle string, `I:R` (70_reset R612). -/
def State.ir (s : State) : Word := s.i ++ s.r

end Sys2Proof.Machine
end

