-- ==== Sys2Proof/Machine/Paging.lean ====
section
/-! DEFINITION. The page map of the two models (20_memory R82, R83), which pages are contended (R89), and the two byte
accesses of the bus, `MemRead` and `MemWrite` (R76, R77), without their time. -/

namespace Sys2Proof.Machine

/-- A 16 KiB page of ROM or RAM (10_state R39). -/
inductive Page where
  | rom (n : Nat)
  | ram (n : Nat)
deriving DecidableEq, Repr

/-- `PAGE_SIZE` (00_scope R5). -/
def pageSize : Nat := 16384

/-- `ROM_PAGES` (00_scope R5, D2). -/
def romPages : Model → Nat
  | .m48 => 1
  | .m128 => 2

/-- `RAM_PAGES` (00_scope R5, D2). -/
def ramPages : Model → Nat
  | .m48 => 3
  | .m128 => 8

/-- `HAS_AY` (00_scope R5, D8). -/
def hasAy : Model → Bool
  | .m48 => false
  | .m128 => true

/-- The slot of an address, `a[15:14]` (R76). -/
def slotOf (a : Word) : Nat := (a.extractLsb' 14 2).toNat

/-- The offset of an address in its slot, `a[13:0]` (R76). -/
def offsetOf (a : Word) : Nat := (a.extractLsb' 0 14).toNat

/-- `ram_sel`: the RAM page at slot 3 (R83). -/
def ramSel (paging : BitVec 6) : Nat := (paging.extractLsb' 0 3).toNat

/-- `screen_sel` (R83). -/
def screenSel (paging : BitVec 6) : Bool := paging.getLsbD 3

/-- `rom_sel`: the ROM page at slot 0 (R83). -/
def romSel (paging : BitVec 6) : Nat := (paging.extractLsb' 4 1).toNat

/-- `lock` (R83). -/
def pagingLock (paging : BitVec 6) : Bool := paging.getLsbD 5

/-- The page mapped at a slot: R82 for `M48`, R83 for `M128`. -/
def pageMap (model : Model) (paging : BitVec 6) (slot : Nat) : Page :=
  match model, slot with
  | .m48, 0 => .rom 0
  | .m48, 1 => .ram 0
  | .m48, 2 => .ram 1
  | .m48, _ => .ram 2
  | .m128, 0 => .rom (romSel paging)
  | .m128, 1 => .ram 5
  | .m128, 2 => .ram 2
  | .m128, _ => .ram (ramSel paging)

/-- The page an address resolves to in a state. -/
def pageAt (s : State) (a : Word) : Page := pageMap s.cfg.model s.paging (slotOf a)

/-- The key of a byte of a page in its bank (log 9). -/
def cellKey (page off : Nat) : Nat := page * pageSize + off

/-- `MemRead(a, 1)` (R76): the byte, no side effect (R81). -/
def read8 (s : State) (a : Word) : Byte :=
  match pageAt s a with
  | .rom n => s.rom.read (cellKey n (offsetOf a))
  | .ram n => s.ram.read (cellKey n (offsetOf a))

/-- `MemWrite(a, 1, v)` (R77): a RAM page takes the byte, a ROM page drops it (R85). -/
def write8 (a : Word) (v : Byte) (s : State) : State :=
  match pageAt s a with
  | .rom _ => s
  | .ram n => { s with ram := s.ram.write (cellKey n (offsetOf a)) v }

/-- `MemRead(a, 2)` (R73): low address first, addresses modulo 65536. -/
def read16 (s : State) (a : Word) : Word := read8 s (a + 1) ++ read8 s a

/-- `CONTENDED_PAGES` (00_scope R5, D7). -/
def contendedPage : Model → Page → Bool
  | .m48, .ram n => n == 0
  | .m128, .ram n => n % 2 == 1
  | _, .rom _ => false

/-- `isContended(address)` (R89), with the page map in force (70_reset R614). -/
def contended (s : State) (a : Word) : Bool := contendedPage s.cfg.model (pageAt s a)

/-- The RAM page the video circuitry displays (R88). -/
def videoPage (s : State) : Nat :=
  match s.cfg.model with
  | .m48 => 0
  | .m128 => if screenSel s.paging then 7 else 5

/-- A byte put at an address from outside the machine: the page takes it, ROM too (log 4; the ROM image is supplied at
construction, 00_scope R5). -/
def poke (a : Word) (v : Byte) (s : State) : State :=
  match pageAt s a with
  | .rom n => { s with rom := s.rom.write (cellKey n (offsetOf a)) v }
  | .ram n => { s with ram := s.ram.write (cellKey n (offsetOf a)) v }

end Sys2Proof.Machine
end

