-- ==== Sys2Proof/Machine/Timing.lean ====
section
/-! DEFINITION. Time (70_reset R608 to R618): the contention function, and the elements of a bus-cycle string as
operations on `frame_t`. The T-states a step costs are the difference of `frameT` (log 12). -/

namespace Sys2Proof.Machine

/-- `FRAME_TSTATES`, B (00_scope R5, D3). -/
def frameTstates : Model → Nat
  | .m48 => 69888
  | .m128 => 70908

/-- `LINE_TSTATES` (00_scope R5, D7). -/
def lineTstates : Model → Nat
  | .m48 => 224
  | .m128 => 228

/-- `CONT_FIRST` (00_scope R5, D7), and what a configuration adds to it (R613). -/
def contFirst (cfg : Config) : Nat :=
  (match cfg.model with | .m48 => 14335 | .m128 => 14361) + cfg.contShift

/-- `CONT_PATTERN` (00_scope R5, D7): the delay at each of the eight positions of a group. -/
def contPattern : Nat → Nat
  | 0 => 6 | 1 => 5 | 2 => 4 | 3 => 3 | 4 => 2 | 5 => 1 | _ => 0

/-- `Delay(t)` (R613). -/
def delay (cfg : Config) (t : Nat) : Nat :=
  let u := t - contFirst cfg
  if t < contFirst cfg then 0
  else if u / lineTstates cfg.model ≥ 192 ∨ u % lineTstates cfg.model ≥ 128 then 0
  else contPattern (u % lineTstates cfg.model % 8)

/-- `tick(n)` (R610). -/
def tick (n : Nat) (s : State) : State := { s with frameT := s.frameT + n }

/-- An element `a:n` of a bus-cycle string (R611): a contended address waits `Delay(frame_t)` first. -/
def cycle (a : Word) (n : Nat) (s : State) : State :=
  tick n (tick (if contended s a then delay s.cfg s.frameT else 0) s)

/-- An element `a:1 xk` (R611, R616): each T-state is tested separately. -/
def internal (a : Word) : Nat → State → State
  | 0, s => s
  | k + 1, s => internal a k (cycle a 1 s)

/-- A part `C:n` of an I/O cycle (R617): always delayed, then `n` T-states. -/
def ioPart (n : Nat) (s : State) : State := tick n (tick (delay s.cfg s.frameT) s)

/-- An element `IO(r):4` or `IO(w):4` with port address `p` (R617): four T-states and the delays of its parts. The page
map is the one at the start of the element (R614). -/
def ioCycle (p : Word) (s : State) : State :=
  if contended s p then
    if p.getLsbD 0 then ioPart 1 (ioPart 1 (ioPart 1 (ioPart 1 s))) else ioPart 3 (ioPart 1 s)
  else if p.getLsbD 0 then tick 4 s
  else ioPart 3 (tick 1 s)

end Sys2Proof.Machine
end

