-- ==== Sys2Proof/Machine/Ops.lean ====
section
/-! DEFINITION. The named operations the meanings are written with: opcode and operand fetches (30_encoding R111, R120),
timed reads and writes (70_reset R611), the stack (20_memory R75), taking an interrupt as one shared operation
(60_exceptions R507 to R512) and the return from one (R513). -/

namespace Sys2Proof.Machine

/-- What a meaning answers. -/
abbrev Result := Host.Outcome State Fault Refusal

/-- `incR(R)` (10_state R29): bits 6:0 count modulo 128, bit 7 stays. -/
def incR (r : Byte) : Byte := r.extractLsb' 7 1 ++ (r.extractLsb' 0 7 + 1#7)

/-- `fetch_op()` (30_encoding R111): an M1 cycle at PC, PC and R go up. The byte itself is the decoder's. -/
def fetchOp (s : State) : State :=
  let t := cycle s.pc 4 s
  { t with pc := s.pc + 1, r := incR s.r }

/-- `fetch8()` (30_encoding R120): an operand fetch at PC, PC goes up, R stays. -/
def fetch8 (s : State) : State :=
  let t := cycle s.pc 3 s
  { t with pc := s.pc + 1 }

/-- `fetch16()` (30_encoding R120). -/
def fetch16 (s : State) : State := fetch8 (fetch8 s)

/-- The two opcode fetches of a CB, ED, DD or FD instruction (30_encoding R111). -/
def fetchOp2 (s : State) : State := fetchOp (fetchOp s)

/-- A memory write cycle `a(w):3` with its data (70_reset R611, 20_memory R77). -/
def store8 (a : Word) (v : Byte) (s : State) : State := write8 a v (cycle a 3 s)

/-- `MemWrite(a, 2, v)` with its cycles (20_memory R74): low byte first. -/
def store16 (a v : Word) (s : State) : State := store8 (a + 1) (hiByte v) (store8 a (loByte v) s)

/-- The two read cycles of `MemRead(a, 2)` (20_memory R73): low address first. -/
def cycle16 (a : Word) (s : State) : State := cycle (a + 1) 3 (cycle a 3 s)

/-- `push16(v)` with its cycles `sp-1(w):3,sp-2(w):3` (20_memory R75): high byte first. -/
def push16 (v : Word) (s : State) : State :=
  let s1 := store8 (s.sp - 1) (hiByte v) (setSp (s.sp - 1) s)
  store8 (s1.sp - 1) (loByte v) (setSp (s1.sp - 1) s1)

/-- The cycles and the SP of `pop16()`, `sp:3,sp+1:3` (20_memory R75); its value is `read16` at SP before it. -/
def pop16 (s : State) : State :=
  setSp (s.sp + 2) (cycle16 s.sp s)

/-- A jump that also writes MEMPTR (10_state R33). -/
def jumpTo (target : Word) (s : State) : State := { s with pc := target, memptr := target }

/-- The return of `RET` (48_jump_call_return R432, 60_exceptions R513): PC and MEMPTR take the word at SP. -/
def popPc (s : State) : State := jumpTo (read16 s s.sp) (pop16 s)

/-- The return of `RETI` and `RETN` (48_jump_call_return R434, R435, 60_exceptions R513): IFF1 takes IFF2, PC is
popped; nothing else is restored. -/
def returnFromTrap (s : State) : State := popPc { s with iff1 := s.iff2 }

/-! ### Taking an interrupt -/

/-- The entry of an interrupt (60_exceptions R507, R511, R512), shared by both: the CPU leaves the halted state, IFF1 is
cleared, R goes up, the acknowledge cycle of `ack` T-states passes (70_reset R618), PC is pushed. What sets the two
apart (IFF2, `int_state`, `nmi_pending`, the target) is in the two responses. -/
def enterTrap (ack : Nat) (s : State) : State :=
  push16 s.pc (tick ack { s with halted := false, iff1 := false, r := incR s.r })

/-- The NMI response (60_exceptions R511): IFF2 is kept, the target is 0x0066. -/
def nmiResponse (s : State) : State := jumpTo 0x0066 (enterTrap 5 { s with nmiPending := false })

/-- The word a mode 2 response jumps to (60_exceptions R510): the word at `I:INT_BUS_BYTE`, read after the push. -/
def im2Vector (s : State) : Word := s.i ++ s.cfg.intBusByte

/-- The maskable response (60_exceptions R507): the request is serviced, IFF1 and IFF2 are cleared, PC is pushed, and
the mode gives the target (R508, R509, R510). -/
def intResponse (s : State) : Result :=
  let entered := enterTrap 7 { s with intState := .serviced, iff2 := false }
  match s.im with
  | .im0 =>
    if s.cfg.intBusByte &&& 0xC7 = 0xC7 then
      .next (jumpTo ((s.cfg.intBusByte &&& 0x38).setWidth 16) entered)
    else .refused .im0NonRst
  | .im1 => .next (jumpTo 0x0038 entered)
  | .im2 => .next (jumpTo (read16 entered (im2Vector s)) (cycle16 (im2Vector s) entered))

/-- The window in which a pending request may be accepted (60_exceptions R504, D5). -/
def holdOpen (cfg : Config) (t : Nat) : Bool :=
  match cfg.intHold with
  | none => true
  | some n => decide (t < cfg.intOffset + n)

/-- Whether the maskable request is accepted at this step, `inhibit` apart (60_exceptions R504). -/
def intReady (s : State) : Bool := s.intState == .pending && s.iff1 && holdOpen s.cfg s.frameT

/-- A halted cycle (60_exceptions R504): an opcode fetch at PC whose byte is discarded; PC stays, R goes up. -/
def haltedCycle (s : State) : State :=
  let t := cycle s.pc 4 s
  { t with r := incR s.r }

/-- The four bytes at PC, the window the decoder reads (30_encoding R110). -/
def fetchWindow (s : State) : List Byte :=
  [read8 s s.pc, read8 s (s.pc + 1), read8 s (s.pc + 2), read8 s (s.pc + 3)]

/-- The four things one step can do (60_exceptions R504). -/
inductive StepKind where
  | nmi | int | haltedCycle | instruction
deriving DecidableEq, Repr

/-- Which of the four a step does (60_exceptions R504, R506): the order of the checks is the priority. -/
def stepKind (s : State) : StepKind :=
  if !s.inhibit && s.nmiPending then .nmi
  else if !s.inhibit && intReady s then .int
  else if s.halted then .haltedCycle
  else .instruction

/-! ### Operand forms with their cycles -/

/-- The fetches of an `(XY+d)` form with opcode second (43_arith8 R263): two opcode fetches, the displacement, five
internal T-states at its address; MEMPTR takes the indexed address. -/
def indexed (xy : XY) (d : Byte) (s : State) : State :=
  let t := fetch8 (fetchOp2 s)
  { internal (t.pc - 1) 5 t with memptr := indexAddr s xy d }

/-- The fetches of an `(XY+d)` form with a fourth byte (40_load8 R157, 46_rotate_shift R367): two opcode fetches, two
operand bytes, two internal T-states at the last one's address; MEMPTR takes the indexed address. -/
def indexed4 (xy : XY) (d : Byte) (s : State) : State :=
  let t := fetch16 (fetchOp2 s)
  { internal (t.pc - 1) 2 t with memptr := indexAddr s xy d }

/-- Read, one internal T-state, write: the cycles `a:3,a:1,a(w):3` of a read-modify-write form (20_memory R80). -/
def modify (a : Word) (v : Byte) (s : State) : State := store8 a v (cycle a 1 (cycle a 3 s))

/-- Put PC back to the first byte of a two-byte instruction that repeats (42_exchange_block R233). -/
def repeatPc (s : State) : State := { s with pc := s.pc - 2 }

end Sys2Proof.Machine
end

