-- ==== Sys2Proof/Machine/Arith16.lean ====
section
/-! DEFINITION. The 16-bit arithmetic group (45_arith16 R340 to R347). -/

namespace Sys2Proof.Machine

/-- `k` internal T-states at `ir` (70_reset R612). -/
def internalIr (k : Nat) (t : State) : State := internal t.ir k t

/-- `ADD HL,ss` (R340). -/
def execAddHlSs (ss : DD) (s : State) : Result :=
  let rf := add16 s.hl (getDd s ss) s.f
  .next (setHl rf.1 { internalIr 7 (fetchOp s) with f := rf.2, memptr := s.hl + 1 })

/-- `ADC HL,ss` (R341). -/
def execAdcHlSs (ss : DD) (s : State) : Result :=
  let rf := adc16 s.hl (getDd s ss) (flagC s.f)
  .next (setHl rf.1 { internalIr 7 (fetchOp2 s) with f := rf.2, memptr := s.hl + 1 })

/-- `SBC HL,ss` (R342). -/
def execSbcHlSs (ss : DD) (s : State) : Result :=
  let rf := sbc16 s.hl (getDd s ss) (flagC s.f)
  .next (setHl rf.1 { internalIr 7 (fetchOp2 s) with f := rf.2, memptr := s.hl + 1 })

/-- `ADD XY,pp` (R343). -/
def execAddXyPp (xy : XY) (pp : PP) (s : State) : Result :=
  let rf := add16 (getXy s xy) (getPp s xy pp) s.f
  .next (setXy xy rf.1 { internalIr 7 (fetchOp2 s) with f := rf.2, memptr := getXy s xy + 1 })

/-- `INC ss` (R344): no flag changes. -/
def execIncSs (ss : DD) (s : State) : Result :=
  .next (setDd ss (getDd s ss + 1) (internalIr 2 (fetchOp s)))

/-- `INC XY` (R345). -/
def execIncXy (xy : XY) (s : State) : Result :=
  .next (setXy xy (getXy s xy + 1) (internalIr 2 (fetchOp2 s)))

/-- `DEC ss` (R346). -/
def execDecSs (ss : DD) (s : State) : Result :=
  .next (setDd ss (getDd s ss - 1) (internalIr 2 (fetchOp s)))

/-- `DEC XY` (R347). -/
def execDecXy (xy : XY) (s : State) : Result :=
  .next (setXy xy (getXy s xy - 1) (internalIr 2 (fetchOp2 s)))

end Sys2Proof.Machine
end

