-- ==== Sys2Proof/Machine/Arith8.lean ====
section
/-! DEFINITION. The 8-bit arithmetic and logic group (43_arith8 R257 to R307): eight accumulator operations in five
operand forms, and INC and DEC in four. The forms differ only in where the operand comes from. -/

namespace Sys2Proof.Machine

/-- The effect of an accumulator operation on A and F (R257). -/
def aluApply (op : Byte → Byte → Bool → Byte × Byte) (v : Byte) (s : State) : State :=
  { s with a := (op s.a v (flagC s.f)).1, f := (op s.a v (flagC s.f)).2 }

/-- The form with a register operand (43_arith8 section 2). -/
def aluReg (op : Byte → Byte → Bool → Byte × Byte) (r : R8) (s : State) : Result :=
  .next (aluApply op (getR8 s r) (fetchOp s))

/-- The form with an immediate operand. -/
def aluImm (op : Byte → Byte → Bool → Byte × Byte) (n : Byte) (s : State) : Result :=
  .next (aluApply op n (fetch8 (fetchOp s)))

/-- The form with the operand at HL. -/
def aluHl (op : Byte → Byte → Bool → Byte × Byte) (s : State) : Result :=
  .next (aluApply op (read8 s s.hl) (cycle s.hl 3 (fetchOp s)))

/-- The form with an indexed operand; MEMPTR takes the address. -/
def aluXy (op : Byte → Byte → Bool → Byte × Byte) (xy : XY) (d : Byte) (s : State) : Result :=
  .next (aluApply op (read8 s (indexAddr s xy d)) (cycle (indexAddr s xy d) 3 (indexed xy d s)))

/-- The form with a half of an index register. -/
def aluHalf (op : Byte → Byte → Bool → Byte × Byte) (xy : XY) (j : Half) (s : State) : Result :=
  .next (aluApply op (getHalf s xy j) (fetchOp2 s))

/-- `ADD A,r` (R260). -/
def execAddR (r : R8) (s : State) : Result := aluReg aluAdd r s
/-- `ADD A,n` (R261). -/
def execAddN (n : Byte) (s : State) : Result := aluImm aluAdd n s
/-- `ADD A,(HL)` (R262). -/
def execAddMemHl (s : State) : Result := aluHl aluAdd s
/-- `ADD A,(XY+d)` (R263). -/
def execAddMemXy (xy : XY) (d : Byte) (s : State) : Result := aluXy aluAdd xy d s
/-- `ADD A,XYH` and `ADD A,XYL` (R264). -/
def execAddXyHalf (xy : XY) (j : Half) (s : State) : Result := aluHalf aluAdd xy j s

/-- `ADC A,r` (R265). -/
def execAdcR (r : R8) (s : State) : Result := aluReg aluAdc r s
/-- `ADC A,n` (R266). -/
def execAdcN (n : Byte) (s : State) : Result := aluImm aluAdc n s
/-- `ADC A,(HL)` (R267). -/
def execAdcMemHl (s : State) : Result := aluHl aluAdc s
/-- `ADC A,(XY+d)` (R268). -/
def execAdcMemXy (xy : XY) (d : Byte) (s : State) : Result := aluXy aluAdc xy d s
/-- `ADC A,XYH` and `ADC A,XYL` (R269). -/
def execAdcXyHalf (xy : XY) (j : Half) (s : State) : Result := aluHalf aluAdc xy j s

/-- `SUB r` (R270). -/
def execSubR (r : R8) (s : State) : Result := aluReg aluSub r s
/-- `SUB n` (R271). -/
def execSubN (n : Byte) (s : State) : Result := aluImm aluSub n s
/-- `SUB (HL)` (R272). -/
def execSubMemHl (s : State) : Result := aluHl aluSub s
/-- `SUB (XY+d)` (R273). -/
def execSubMemXy (xy : XY) (d : Byte) (s : State) : Result := aluXy aluSub xy d s
/-- `SUB XYH` and `SUB XYL` (R274). -/
def execSubXyHalf (xy : XY) (j : Half) (s : State) : Result := aluHalf aluSub xy j s

/-- `SBC A,r` (R275). -/
def execSbcR (r : R8) (s : State) : Result := aluReg aluSbc r s
/-- `SBC A,n` (R276). -/
def execSbcN (n : Byte) (s : State) : Result := aluImm aluSbc n s
/-- `SBC A,(HL)` (R277). -/
def execSbcMemHl (s : State) : Result := aluHl aluSbc s
/-- `SBC A,(XY+d)` (R278). -/
def execSbcMemXy (xy : XY) (d : Byte) (s : State) : Result := aluXy aluSbc xy d s
/-- `SBC A,XYH` and `SBC A,XYL` (R279). -/
def execSbcXyHalf (xy : XY) (j : Half) (s : State) : Result := aluHalf aluSbc xy j s

/-- `AND r` (R280). -/
def execAndR (r : R8) (s : State) : Result := aluReg aluAnd r s
/-- `AND n` (R281). -/
def execAndN (n : Byte) (s : State) : Result := aluImm aluAnd n s
/-- `AND (HL)` (R282). -/
def execAndMemHl (s : State) : Result := aluHl aluAnd s
/-- `AND (XY+d)` (R283). -/
def execAndMemXy (xy : XY) (d : Byte) (s : State) : Result := aluXy aluAnd xy d s
/-- `AND XYH` and `AND XYL` (R284). -/
def execAndXyHalf (xy : XY) (j : Half) (s : State) : Result := aluHalf aluAnd xy j s

/-- `XOR r` (R285). -/
def execXorR (r : R8) (s : State) : Result := aluReg aluXor r s
/-- `XOR n` (R286). -/
def execXorN (n : Byte) (s : State) : Result := aluImm aluXor n s
/-- `XOR (HL)` (R287). -/
def execXorMemHl (s : State) : Result := aluHl aluXor s
/-- `XOR (XY+d)` (R288). -/
def execXorMemXy (xy : XY) (d : Byte) (s : State) : Result := aluXy aluXor xy d s
/-- `XOR XYH` and `XOR XYL` (R289). -/
def execXorXyHalf (xy : XY) (j : Half) (s : State) : Result := aluHalf aluXor xy j s

/-- `OR r` (R290). -/
def execOrR (r : R8) (s : State) : Result := aluReg aluOr r s
/-- `OR n` (R291). -/
def execOrN (n : Byte) (s : State) : Result := aluImm aluOr n s
/-- `OR (HL)` (R292). -/
def execOrMemHl (s : State) : Result := aluHl aluOr s
/-- `OR (XY+d)` (R293). -/
def execOrMemXy (xy : XY) (d : Byte) (s : State) : Result := aluXy aluOr xy d s
/-- `OR XYH` and `OR XYL` (R294). -/
def execOrXyHalf (xy : XY) (j : Half) (s : State) : Result := aluHalf aluOr xy j s

/-- `CP r` (R295). -/
def execCpR (r : R8) (s : State) : Result := aluReg aluCp r s
/-- `CP n` (R296). -/
def execCpN (n : Byte) (s : State) : Result := aluImm aluCp n s
/-- `CP (HL)` (R297). -/
def execCpMemHl (s : State) : Result := aluHl aluCp s
/-- `CP (XY+d)` (R298). -/
def execCpMemXy (xy : XY) (d : Byte) (s : State) : Result := aluXy aluCp xy d s
/-- `CP XYH` and `CP XYL` (R299). -/
def execCpXyHalf (xy : XY) (j : Half) (s : State) : Result := aluHalf aluCp xy j s

/-- INC or DEC of a register (R300, R304). -/
def stepReg (op : Byte → Byte → Byte × Byte) (r : R8) (s : State) : Result :=
  .next (setR8 r (op (getR8 s r) s.f).1 { fetchOp s with f := (op (getR8 s r) s.f).2 })

/-- INC or DEC of the byte at HL (R301, R305). -/
def stepHl (op : Byte → Byte → Byte × Byte) (s : State) : Result :=
  let rf := op (read8 s s.hl) s.f
  .next { modify s.hl rf.1 (fetchOp s) with f := rf.2 }

/-- INC or DEC of an indexed byte (R302, R306). -/
def stepXy (op : Byte → Byte → Byte × Byte) (xy : XY) (d : Byte) (s : State) : Result :=
  let rf := op (read8 s (indexAddr s xy d)) s.f
  .next { modify (indexAddr s xy d) rf.1 (indexed xy d s) with f := rf.2 }

/-- INC or DEC of a half of an index register; no carry passes between the halves (R303, R307). -/
def stepHalf (op : Byte → Byte → Byte × Byte) (xy : XY) (j : Half) (s : State) : Result :=
  .next (setHalf xy j (op (getHalf s xy j) s.f).1 { fetchOp2 s with f := (op (getHalf s xy j) s.f).2 })

/-- `INC r` (R300). -/
def execIncR (r : R8) (s : State) : Result := stepReg inc8 r s
/-- `INC (HL)` (R301). -/
def execIncMemHl (s : State) : Result := stepHl inc8 s
/-- `INC (XY+d)` (R302). -/
def execIncMemXy (xy : XY) (d : Byte) (s : State) : Result := stepXy inc8 xy d s
/-- `INC XYH` and `INC XYL` (R303). -/
def execIncXyHalf (xy : XY) (j : Half) (s : State) : Result := stepHalf inc8 xy j s

/-- `DEC r` (R304). -/
def execDecR (r : R8) (s : State) : Result := stepReg dec8 r s
/-- `DEC (HL)` (R305). -/
def execDecMemHl (s : State) : Result := stepHl dec8 s
/-- `DEC (XY+d)` (R306). -/
def execDecMemXy (xy : XY) (d : Byte) (s : State) : Result := stepXy dec8 xy d s
/-- `DEC XYH` and `DEC XYL` (R307). -/
def execDecXyHalf (xy : XY) (j : Half) (s : State) : Result := stepHalf dec8 xy j s

end Sys2Proof.Machine
end

