-- ==== Sys2Proof/Machine/Bit.lean ====
section
/-! DEFINITION. The bit test, set and reset group (47_bit R400 to R410). -/

namespace Sys2Proof.Machine

/-- `BIT b,r` (R400): Y and X come from the register tested. -/
def execBitR (bit : BitVec 3) (r : R8) (s : State) : Result :=
  .next { fetchOp2 s with f := bitFlags s.f (getR8 s r) bit (getR8 s r) }

/-- `BIT b,(HL)` (R401): Y and X come from the high byte of MEMPTR. -/
def execBitMemHl (bit : BitVec 3) (s : State) : Result :=
  .next { cycle s.hl 1 (cycle s.hl 3 (fetchOp2 s)) with
    f := bitFlags s.f (read8 s s.hl) bit (hiByte s.memptr) }

/-- `BIT b,(XY+d)` (R402): Y and X come from the high byte of the address; `z` is ignored. -/
def execBitMemXy (xy : XY) (bit : BitVec 3) (d : Byte) (_z : BitVec 3) (s : State) : Result :=
  let a := indexAddr s xy d
  .next { cycle a 1 (cycle a 3 (indexed4 xy d s)) with f := bitFlags s.f (read8 s a) bit (hiByte a) }

/-- SET or RES of a register (R403, R407). -/
def bitReg (op : Byte → BitVec 3 → Byte) (bit : BitVec 3) (r : R8) (s : State) : Result :=
  .next (setR8 r (op (getR8 s r) bit) (fetchOp2 s))

/-- SET or RES of the byte at HL (R404, R408). -/
def bitHl (op : Byte → BitVec 3 → Byte) (bit : BitVec 3) (s : State) : Result :=
  .next (modify s.hl (op (read8 s s.hl) bit) (fetchOp2 s))

/-- SET or RES of an indexed byte (R405, R409). -/
def bitIndexed (op : Byte → BitVec 3 → Byte) (xy : XY) (bit : BitVec 3) (d : Byte) (s : State) : State :=
  modify (indexAddr s xy d) (op (read8 s (indexAddr s xy d)) bit) (indexed4 xy d s)

/-- The result of an indexed SET or RES is also copied into a register (R406, R410). -/
def bitXyR (op : Byte → BitVec 3 → Byte) (xy : XY) (bit : BitVec 3) (d : Byte) (r : R8) (s : State) : Result :=
  .next (setR8 r (op (read8 s (indexAddr s xy d)) bit) (bitIndexed op xy bit d s))

/-- `SET b,r` (R403). -/
def execSetR (bit : BitVec 3) (r : R8) (s : State) : Result := bitReg setBit8 bit r s
/-- `SET b,(HL)` (R404). -/
def execSetMemHl (bit : BitVec 3) (s : State) : Result := bitHl setBit8 bit s
/-- `SET b,(XY+d)` (R405). -/
def execSetMemXy (xy : XY) (bit : BitVec 3) (d : Byte) (s : State) : Result := .next (bitIndexed setBit8 xy bit d s)
/-- `SET b,(XY+d),r` (R406). -/
def execSetMemXyR (xy : XY) (bit : BitVec 3) (d : Byte) (r : R8) (s : State) : Result :=
  bitXyR setBit8 xy bit d r s

/-- `RES b,r` (R407). -/
def execResR (bit : BitVec 3) (r : R8) (s : State) : Result := bitReg resBit8 bit r s
/-- `RES b,(HL)` (R408). -/
def execResMemHl (bit : BitVec 3) (s : State) : Result := bitHl resBit8 bit s
/-- `RES b,(XY+d)` (R409). -/
def execResMemXy (xy : XY) (bit : BitVec 3) (d : Byte) (s : State) : Result := .next (bitIndexed resBit8 xy bit d s)
/-- `RES b,(XY+d),r` (R410). -/
def execResMemXyR (xy : XY) (bit : BitVec 3) (d : Byte) (r : R8) (s : State) : Result :=
  bitXyR resBit8 xy bit d r s

end Sys2Proof.Machine
end

