-- ==== Sys2Proof/Machine/Exchange.lean ====
section
/-! DEFINITION. The exchange, block transfer and block search group (42_exchange_block R220 to R233). A repeating
instruction runs one iteration per step (R233, D26). -/

namespace Sys2Proof.Machine

/-- `EX DE,HL` (R220). -/
def execExDeHl (s : State) : Result :=
  .next { fetchOp s with d := s.h, e := s.l, h := s.d, l := s.e }

/-- `EX AF,AF'` (R221). -/
def execExAfAf (s : State) : Result :=
  .next { fetchOp s with a := s.a', f := s.f', a' := s.a, f' := s.f }

/-- `EXX` (R222). -/
def execExx (s : State) : Result :=
  .next { fetchOp s with
    b := s.b', c := s.c', d := s.d', e := s.e', h := s.h', l := s.l'
    b' := s.b, c' := s.c, d' := s.d, e' := s.e, h' := s.h, l' := s.l }

/-- The bus cycles and the writes of `EX (SP),HL` and `EX (SP),XY` after the fetches (R223): the high byte is written
first; MEMPTR takes the word read. -/
def exchangeTop (v : Word) (t : State) : State :=
  let read := cycle (t.sp + 1) 1 (cycle16 t.sp t)
  let written := store8 t.sp (loByte v) (store8 (t.sp + 1) (hiByte v) read)
  { internal t.sp 2 written with memptr := read16 t t.sp }

/-- `EX (SP),HL` (R223). -/
def execExSpHl (s : State) : Result := .next (setHl (read16 s s.sp) (exchangeTop s.hl (fetchOp s)))

/-- `EX (SP),XY` (R224). -/
def execExSpXy (xy : XY) (s : State) : Result :=
  .next (setXy xy (read16 s s.sp) (exchangeTop (getXy s xy) (fetchOp2 s)))

/-- One transfer (R225, R227): `delta` is 1 or −1. -/
def transfer (delta : Word) (s : State) : State :=
  let v := read8 s s.hl
  let t := internal s.de 2 (store8 s.de v (cycle s.hl 3 (fetchOp2 s)))
  setBc (s.bc - 1) (setDe (s.de + delta) (setHl (s.hl + delta)
    { t with f := ldBlockFlags s.f s.a v (s.bc - 1) }))

/-- What a repeating transfer or search adds when it repeats (R226, R230): five T-states at `a`, PC back to the
instruction, MEMPTR its address + 1. -/
def repeatBlock (a : Word) (s : State) : State :=
  let t := repeatPc (internal a 5 s)
  { t with memptr := t.pc + 1 }

/-- `LDI` (R225). -/
def execLdi (s : State) : Result := .next (transfer 1 s)

/-- `LDD` (R227). -/
def execLdd (s : State) : Result := .next (transfer (-1) s)

/-- `LDIR` (R226): repeats while the new BC is not 0. -/
def execLdir (s : State) : Result :=
  let t := transfer 1 s
  .next (if t.bc ≠ 0 then repeatBlock s.de t else t)

/-- `LDDR` (R228). -/
def execLddr (s : State) : Result :=
  let t := transfer (-1) s
  .next (if t.bc ≠ 0 then repeatBlock s.de t else t)

/-- One comparison (R229, R231): `delta` is 1 or −1. -/
def search (delta : Word) (s : State) : State :=
  let v := read8 s s.hl
  let t := internal s.hl 5 (cycle s.hl 3 (fetchOp2 s))
  setBc (s.bc - 1) (setHl (s.hl + delta)
    { t with f := cpBlockFlags s.f s.a v (s.bc - 1), memptr := s.memptr + delta })

/-- `CPI` (R229). -/
def execCpi (s : State) : Result := .next (search 1 s)

/-- `CPD` (R231). -/
def execCpd (s : State) : Result := .next (search (-1) s)

/-- `CPIR` (R230): repeats while the new BC is not 0 and there is no match. -/
def execCpir (s : State) : Result :=
  let t := search 1 s
  .next (if t.bc ≠ 0 ∧ s.a ≠ read8 s s.hl then repeatBlock s.hl t else t)

/-- `CPDR` (R232). -/
def execCpdr (s : State) : Result :=
  let t := search (-1) s
  .next (if t.bc ≠ 0 ∧ s.a ≠ read8 s s.hl then repeatBlock s.hl t else t)

end Sys2Proof.Machine
end

