-- ==== Sys2Proof/Machine/General.lean ====
section
/-! DEFINITION. The general-purpose arithmetic and CPU control group (44_general_control R320 to R333). -/

namespace Sys2Proof.Machine

/-- `DAA` (R320). -/
def execDaa (s : State) : Result :=
  .next { fetchOp s with a := (daa8 s.a s.f).1, f := (daa8 s.a s.f).2 }

/-- `CPL` (R321). -/
def execCpl (s : State) : Result :=
  .next { fetchOp s with a := ~~~s.a, f := cplFlags s.f (~~~s.a) }

/-- `NEG` and its copies (R322); the bits `u` are ignored. -/
def execNeg (_u : BitVec 3) (s : State) : Result :=
  .next { fetchOp2 s with a := (sub8 0 s.a false).1, f := (sub8 0 s.a false).2 }

/-- `CCF` (R323). -/
def execCcf (s : State) : Result := .next { fetchOp s with f := ccfFlags s.f s.a }

/-- `SCF` (R324). -/
def execScf (s : State) : Result := .next { fetchOp s with f := scfFlags s.f s.a }

/-- `NOP` (R325). -/
def execNop (s : State) : Result := .next (fetchOp s)

/-- `HALT` (R326). -/
def execHalt (s : State) : Result := .next { fetchOp s with halted := true }

/-- `DI` (R327). -/
def execDi (s : State) : Result := .next { fetchOp s with iff1 := false, iff2 := false }

/-- `EI` (R328): no interrupt is accepted before the instruction after it has run. -/
def execEi (s : State) : Result := .next { fetchOp s with iff1 := true, iff2 := true, inhibit := true }

/-- `IM 0` and its copies (R329); the bits `u` and `v` are ignored. -/
def execIm0 (_u _v : BitVec 1) (s : State) : Result := .next { fetchOp2 s with im := .im0 }

/-- `IM 1` and its copy (R330). -/
def execIm1 (_u : BitVec 1) (s : State) : Result := .next { fetchOp2 s with im := .im1 }

/-- `IM 2` and its copy (R331). -/
def execIm2 (_u : BitVec 1) (s : State) : Result := .next { fetchOp2 s with im := .im2 }

/-- `NOP*` at ED 77 and ED 7F (R332). -/
def execNopEd7 (_u : BitVec 1) (s : State) : Result := .next (fetchOp2 s)

/-- `NOP*` at ED 00 to ED 3F (R332). -/
def execNopEd0 (_x : BitVec 6) (s : State) : Result := .next (fetchOp2 s)

/-- `NOP*` at ED 80 to ED 9F (R332). -/
def execNopEd8 (_x : BitVec 5) (s : State) : Result := .next (fetchOp2 s)

/-- `NOP*` in the gaps of the block group (R332). -/
def execNopEdA (_x _x' : BitVec 2) (s : State) : Result := .next (fetchOp2 s)

/-- `NOP*` at ED C0 to ED FF (R332). -/
def execNopEdC (_x : BitVec 6) (s : State) : Result := .next (fetchOp2 s)

/-- `NONI` (R333): one fetch, and no interrupt before the next step. -/
def execNoni (_xy : XY) (s : State) : Result := .next { fetchOp s with inhibit := true }

end Sys2Proof.Machine
end

