-- ==== Sys2Proof/Machine/Ports.lean ====
section
/-! DEFINITION. The I/O port dispatcher and the core-local devices (60_exceptions R540 to R548), and the I/O cycles of
the input and output instructions. -/

namespace Sys2Proof.Machine

/-- The AND of the half-rows that a port address selects (R542): a 0 in bit `8+i` selects row
`i`. -/
def selectRows (p : Word) (rows : Vector (BitVec 5) 8) : BitVec 5 :=
  let row (i : Fin 8) : BitVec 5 := if p.getLsbD (8 + i.val) then 0x1F else rows[i]
  0x1F &&& row 0 &&& row 1 &&& row 2 &&& row 3 &&& row 4 &&& row 5 &&& row 6 &&& row 7

/-- `ula_read(p)` (R542): bits 7 and 5 read as 1, bit 6 is the tape input, bits 4:0 the keyboard. -/
def ulaRead (s : State) (p : Word) : Byte :=
  0xA0 ||| (if s.tapeIn then 0x40 else 0) ||| (selectRows p s.keyrow).setWidth 8

/-- `FLOATING_BUS` (R546, D9): the configuration's constant, or the free value (log 7). -/
def floatingBus (s : State) (p : Word) : Byte :=
  match s.cfg.floatingBus with
  | .constant v => v
  | .free => Config.freeBus s.frameT p s.ram s.paging

/-- `PortRead(p)` (R540): the first line that matches. It changes no state. -/
def portRead (s : State) (p : Word) : Byte :=
  if p.getLsbD 0 = false then ulaRead s p
  else if hasAy s.cfg.model && p.getLsbD 15 && p.getLsbD 14 && !p.getLsbD 1 then s.ayReg[s.aySel.toFin]
  else floatingBus s p

/-- `AY_MASK` (R545): the implemented bits of each sound register. -/
def ayMask (n : BitVec 4) : Byte :=
  match n.toNat with
  | 0 | 2 | 4 | 7 | 11 | 12 | 14 | 15 => 0xFF
  | 1 | 3 | 5 | 13 => 0x0F
  | _ => 0x1F

/-- `ula_write(v)` (R543). -/
def ulaWrite (v : Byte) (s : State) : State :=
  { s with border := v.extractLsb' 0 3, mic := v.getLsbD 3, beeper := v.getLsbD 4 }

/-- `paging_write(v)` (R544): ignored once the lock bit is 1. -/
def pagingWrite (v : Byte) (s : State) : State :=
  if pagingLock s.paging then s else { s with paging := v.extractLsb' 0 6 }

/-- A write to the sound chip's ports (R541, R545): select with `p[14]` 1, register write with 0. -/
def ayWrite (p : Word) (v : Byte) (s : State) : State :=
  if p.getLsbD 14 then { s with aySel := v.extractLsb' 0 4 }
  else { s with ayReg := s.ayReg.set s.aySel.toFin (v &&& ayMask s.aySel) }

/-- Append to the port write log (10_state R44, R548). -/
def logWrite (p : Word) (v : Byte) (s : State) : State := { s with log := s.log ++ [⟨s.frameT, p, v⟩] }

/-- Whether a write to port `p` reaches the paging latch (R541, R544): only on `M128`. -/
def reachesPaging (model : Model) (p : Word) : Bool := model == .m128 && !p.getLsbD 15 && !p.getLsbD 1

/-- Whether a write to port `p` reaches the sound chip (R541, R545). -/
def reachesAy (model : Model) (p : Word) : Bool := hasAy model && p.getLsbD 15 && !p.getLsbD 1

/-- `PortWrite(p, v)` (R541): every line whose condition holds acts. -/
def portWrite (p : Word) (v : Byte) (s : State) : State :=
  let s1 := logWrite p v s
  let s2 := if p.getLsbD 0 = false then ulaWrite v s1 else s1
  let s3 := if reachesPaging s.cfg.model p then pagingWrite v s2 else s2
  if reachesAy s.cfg.model p then ayWrite p v s3 else s3

/-- An element `IO(w):4` with its data: the access is made at the start of the element (R548), its delays follow, under
the page map of the element's start (70_reset R614, log 15). -/
def outCycle (p : Word) (v : Byte) (s : State) : State :=
  { portWrite p v s with frameT := (ioCycle p s).frameT }

end Sys2Proof.Machine
end

