-- ==== Sys2Proof/Machine/Io.lean ====
section
/-! DEFINITION. The input and output group (49_io R450 to R463). A port is read or written at the start of its I/O cycle
(60_exceptions R548). -/

namespace Sys2Proof.Machine

/-- `IN A,(n)` (R450): the high half of the port address is the A before the instruction. -/
def execInAN (n : Byte) (s : State) : Result :=
  let t := fetch8 (fetchOp s)
  let p : Word := s.a ++ n
  .next { ioCycle p t with a := portRead t p, memptr := p + 1 }

/-- `IN r,(C)` (R451): the port address is all of the old BC. -/
def execInRC (r : R8) (s : State) : Result :=
  let t := fetchOp2 s
  let v := portRead t s.bc
  .next (setR8 r v { ioCycle s.bc t with f := keepCFlags s.f v, memptr := s.bc + 1 })

/-- `IN (C)` (R452): flags only. -/
def execInC (s : State) : Result :=
  let t := fetchOp2 s
  .next { ioCycle s.bc t with f := keepCFlags s.f (portRead t s.bc), memptr := s.bc + 1 }

/-- The two fetches and the internal T-state at `ir` of the block I/O instructions (R453, R460). -/
def blockIoFetch (s : State) : State :=
  let t := fetchOp2 s
  internal t.ir 1 t

/-- One block input (R453, R455): the port address is the old BC; `delta` is 1 or −1, and `k` is `v + (C ± 1)`. -/
def blockIn (delta : Word) (s : State) : State :=
  let t := blockIoFetch s
  let v := portRead t s.bc
  let u := store8 s.hl v (ioCycle s.bc t)
  setHl (s.hl + delta) { u with
    b := s.b - 1
    memptr := s.bc + delta
    f := ioBlockFlags (s.b - 1) v (v.toNat + (s.c + loByte delta).toNat) }

/-- `INI` (R453). -/
def execIni (s : State) : Result := .next (blockIn 1 s)

/-- `IND` (R455). -/
def execInd (s : State) : Result := .next (blockIn (-1) s)

/-- `INIR` (R454): repeats while the new B is not 0; five more T-states at the old HL. -/
def execInir (s : State) : Result :=
  let t := blockIn 1 s
  .next (if t.b ≠ 0 then repeatPc (internal s.hl 5 t) else t)

/-- `INDR` (R456). -/
def execIndr (s : State) : Result :=
  let t := blockIn (-1) s
  .next (if t.b ≠ 0 then repeatPc (internal s.hl 5 t) else t)

/-- `OUT (n),A` (R457). -/
def execOutNA (n : Byte) (s : State) : Result :=
  .next { outCycle (s.a ++ n) s.a (fetch8 (fetchOp s)) with memptr := s.a ++ (n + 1) }

/-- Write a byte to the port BC addresses (R458, R459). -/
def outBc (v : Byte) (s : State) : Result :=
  .next { outCycle s.bc v (fetchOp2 s) with memptr := s.bc + 1 }

/-- `OUT (C),r` (R458). -/
def execOutCR (r : R8) (s : State) : Result := outBc (getR8 s r) s

/-- `OUT (C),0` (R459). -/
def execOutC0 (s : State) : Result := outBc 0x00 s

/-- One block output (R460, R462): B is decremented before the port address is formed; `delta` is 1 or −1, and `k` is
`v + L` with the new L. -/
def blockOut (delta : Word) (s : State) : State :=
  let v := read8 s s.hl
  let t := cycle s.hl 3 (blockIoFetch s)
  let bc : Word := (s.b - 1) ++ s.c
  let hl := s.hl + delta
  setHl hl { outCycle bc v t with
    b := s.b - 1
    memptr := bc + delta
    f := ioBlockFlags (s.b - 1) v (v.toNat + (loByte hl).toNat) }

/-- `OUTI` (R460). -/
def execOuti (s : State) : Result := .next (blockOut 1 s)

/-- `OUTD` (R462). -/
def execOutd (s : State) : Result := .next (blockOut (-1) s)

/-- `OTIR` (R461): repeats while the new B is not 0; five more T-states at the new BC. -/
def execOtir (s : State) : Result :=
  let t := blockOut 1 s
  .next (if t.b ≠ 0 then repeatPc (internal t.bc 5 t) else t)

/-- `OTDR` (R463). -/
def execOtdr (s : State) : Result :=
  let t := blockOut (-1) s
  .next (if t.b ≠ 0 then repeatPc (internal t.bc 5 t) else t)

end Sys2Proof.Machine
end

