-- ==== Sys2Proof/Machine/Jump.lean ====
section
/-! DEFINITION. The jump, call and return group (48_jump_call_return R420 to R436). No instruction here changes a
flag. -/

namespace Sys2Proof.Machine

/-- `JP nn` (R420). -/
def execJpNn (nn : Word) (s : State) : Result := .next (jumpTo nn (fetch16 (fetchOp s)))

/-- `JP cc,nn` (R421): MEMPTR takes `nn` either way. -/
def execJpCcNn (cc : Cond) (nn : Word) (s : State) : Result :=
  let t := fetch16 (fetchOp s)
  .next (if condHolds s.f cc then jumpTo nn t else { t with memptr := nn })

/-- Take a relative jump (R422): five internal T-states at the displacement's address, the target from the address of the
next instruction. -/
def jumpRel (e : Byte) (t : State) : State := jumpTo (t.pc + sext16 e) (internal (t.pc - 1) 5 t)

/-- A relative jump taken only when `taken` holds (R423). -/
def jumpRelIf (taken : Bool) (e : Byte) (t : State) : Result := .next (if taken then jumpRel e t else t)

/-- `JR e` (R422). -/
def execJr (e : Byte) (s : State) : Result := .next (jumpRel e (fetch8 (fetchOp s)))

/-- `JR C,e` (R423). -/
def execJrC (e : Byte) (s : State) : Result := jumpRelIf (flagC s.f) e (fetch8 (fetchOp s))

/-- `JR NC,e` (R424). -/
def execJrNc (e : Byte) (s : State) : Result := jumpRelIf (!flagC s.f) e (fetch8 (fetchOp s))

/-- `JR Z,e` (R425). -/
def execJrZ (e : Byte) (s : State) : Result := jumpRelIf (flagZ s.f) e (fetch8 (fetchOp s))

/-- `JR NZ,e` (R426). -/
def execJrNz (e : Byte) (s : State) : Result := jumpRelIf (!flagZ s.f) e (fetch8 (fetchOp s))

/-- `JP (HL)` (R427): no memory is read. -/
def execJpHl (s : State) : Result := .next { fetchOp s with pc := s.hl }

/-- `JP (XY)` (R428). -/
def execJpXy (xy : XY) (s : State) : Result := .next { fetchOp2 s with pc := getXy s xy }

/-- `DJNZ e` (R429): the flags are untouched. -/
def execDjnz (e : Byte) (s : State) : Result :=
  let t := fetchOp s
  jumpRelIf (s.b - 1 != 0) e { fetch8 (internal t.ir 1 t) with b := s.b - 1 }

/-- A call after its fetches (R430): one internal T-state at the last operand byte, the return address pushed, PC and
MEMPTR the target. -/
def callTo (nn : Word) (t : State) : State := jumpTo nn (push16 t.pc (internal (t.pc - 1) 1 t))

/-- `CALL nn` (R430). -/
def execCallNn (nn : Word) (s : State) : Result := .next (callTo nn (fetch16 (fetchOp s)))

/-- `CALL cc,nn` (R431): MEMPTR takes `nn` either way. -/
def execCallCcNn (cc : Cond) (nn : Word) (s : State) : Result :=
  let t := fetch16 (fetchOp s)
  .next (if condHolds s.f cc then callTo nn t else { t with memptr := nn })

/-- `RET` (R432). -/
def execRet (s : State) : Result := .next (popPc (fetchOp s))

/-- `RET cc` (R433): the internal T-state passes either way. -/
def execRetCc (cc : Cond) (s : State) : Result :=
  let t := fetchOp s
  let u := internal t.ir 1 t
  .next (if condHolds s.f cc then popPc u else u)

/-- `RETI` (R434). -/
def execReti (s : State) : Result := .next (returnFromTrap (fetchOp2 s))

/-- `RETN` and its copies (R435); the bits `u` are ignored. -/
def execRetn (_u : BitVec 3) (s : State) : Result := .next (returnFromTrap (fetchOp2 s))

/-- `RST p` (R436). -/
def execRst (t : BitVec 3) (s : State) : Result :=
  let u := fetchOp s
  .next (jumpTo (restartAddr t) (push16 u.pc (internal u.ir 1 u)))

end Sys2Proof.Machine
end

