-- ==== Sys2Proof/Machine/Load16.lean ====
section
/-! DEFINITION. The 16-bit load group, PUSH and POP (41_load16 R190 to R203). -/

namespace Sys2Proof.Machine

/-- `LD dd,nn` (R190). -/
def execLdDdNn (dd : DD) (nn : Word) (s : State) : Result := .next (setDd dd nn (fetch16 (fetchOp s)))

/-- `LD XY,nn` (R191). -/
def execLdXyNn (xy : XY) (nn : Word) (s : State) : Result := .next (setXy xy nn (fetch16 (fetchOp2 s)))

/-- The two reads of a word load from `nn` and its MEMPTR (R192 to R194); `t` is the state after the fetches. -/
def loadWord (nn : Word) (t : State) : State := { cycle16 nn t with memptr := nn + 1 }

/-- `LD HL,(nn)` (R192). -/
def execLdHlMemNn (nn : Word) (s : State) : Result :=
  .next (setHl (read16 s nn) (loadWord nn (fetch16 (fetchOp s))))

/-- `LD dd,(nn)` (R193). -/
def execLdDdMemNn (dd : DD) (nn : Word) (s : State) : Result :=
  .next (setDd dd (read16 s nn) (loadWord nn (fetch16 (fetchOp2 s))))

/-- `LD XY,(nn)` (R194). -/
def execLdXyMemNn (xy : XY) (nn : Word) (s : State) : Result :=
  .next (setXy xy (read16 s nn) (loadWord nn (fetch16 (fetchOp2 s))))

/-- Store a word at `nn`, low byte first, and write MEMPTR (R195 to R197); `t` is the state after the fetches. -/
def storeWord (nn v : Word) (t : State) : Result := .next { store16 nn v t with memptr := nn + 1 }

/-- `LD (nn),HL` (R195). -/
def execLdMemNnHl (nn : Word) (s : State) : Result := storeWord nn s.hl (fetch16 (fetchOp s))

/-- `LD (nn),dd` (R196). -/
def execLdMemNnDd (dd : DD) (nn : Word) (s : State) : Result := storeWord nn (getDd s dd) (fetch16 (fetchOp2 s))

/-- `LD (nn),XY` (R197). -/
def execLdMemNnXy (xy : XY) (nn : Word) (s : State) : Result := storeWord nn (getXy s xy) (fetch16 (fetchOp2 s))

/-- Load SP after two internal T-states at `ir` (R198, R199); `t` is the state after the fetches. -/
def loadSp (v : Word) (t : State) : Result := .next { internal t.ir 2 t with sp := v }

/-- `LD SP,HL` (R198). -/
def execLdSpHl (s : State) : Result := loadSp s.hl (fetchOp s)

/-- `LD SP,XY` (R199). -/
def execLdSpXy (xy : XY) (s : State) : Result := loadSp (getXy s xy) (fetchOp2 s)

/-- Push after one internal T-state at `ir` (R200, R201); `t` is the state after the fetches. -/
def pushAfterIr (v : Word) (t : State) : State := push16 v (internal t.ir 1 t)

/-- `PUSH qq` (R200). -/
def execPushQq (qq : QQ) (s : State) : Result := .next (pushAfterIr (getQq s qq) (fetchOp s))

/-- `PUSH XY` (R201). -/
def execPushXy (xy : XY) (s : State) : Result := .next (pushAfterIr (getXy s xy) (fetchOp2 s))

/-- `POP qq` (R202): POP AF loads all eight bits of F. -/
def execPopQq (qq : QQ) (s : State) : Result := .next (setQq qq (read16 s s.sp) (pop16 (fetchOp s)))

/-- `POP XY` (R203). -/
def execPopXy (xy : XY) (s : State) : Result := .next (setXy xy (read16 s s.sp) (pop16 (fetchOp2 s)))

end Sys2Proof.Machine
end

