-- ==== Sys2Proof/Machine/Load8.lean ====
section
/-! DEFINITION. The 8-bit load group (40_load8 R150 to R169). Every meaning runs the bus cycles of its rule's Timing line
in their order. -/

namespace Sys2Proof.Machine

/-- `LD r,r'` (R150). -/
def execLdRR (r r' : R8) (s : State) : Result := .next (setR8 r (getR8 s r') (fetchOp s))

/-- `LD r,n` (R151). -/
def execLdRN (r : R8) (n : Byte) (s : State) : Result := .next (setR8 r n (fetch8 (fetchOp s)))

/-- `LD r,(HL)` (R152): the address is the old HL. -/
def execLdRMemHl (r : R8) (s : State) : Result :=
  .next (setR8 r (read8 s s.hl) (cycle s.hl 3 (fetchOp s)))

/-- `LD r,(XY+d)` (R153). -/
def execLdRMemXy (xy : XY) (r : R8) (d : Byte) (s : State) : Result :=
  .next (setR8 r (read8 s (indexAddr s xy d)) (cycle (indexAddr s xy d) 3 (indexed xy d s)))

/-- `LD (HL),r` (R154). -/
def execLdMemHlR (r : R8) (s : State) : Result := .next (store8 s.hl (getR8 s r) (fetchOp s))

/-- `LD (XY+d),r` (R155). -/
def execLdMemXyR (xy : XY) (r : R8) (d : Byte) (s : State) : Result :=
  .next (store8 (indexAddr s xy d) (getR8 s r) (indexed xy d s))

/-- `LD (HL),n` (R156). -/
def execLdMemHlN (n : Byte) (s : State) : Result := .next (store8 s.hl n (fetch8 (fetchOp s)))

/-- `LD (XY+d),n` (R157). -/
def execLdMemXyN (xy : XY) (d n : Byte) (s : State) : Result :=
  .next (store8 (indexAddr s xy d) n (indexed4 xy d s))

/-- Load A from an address, MEMPTR takes the address + 1 (R158 to R160); `t` is `s` after the fetches. -/
def loadA (a : Word) (t : State) : Result :=
  .next { cycle a 3 t with a := read8 t a, memptr := a + 1 }

/-- `LD A,(BC)` (R158). -/
def execLdAMemBc (s : State) : Result := loadA s.bc (fetchOp s)

/-- `LD A,(DE)` (R159). -/
def execLdAMemDe (s : State) : Result := loadA s.de (fetchOp s)

/-- `LD A,(nn)` (R160). -/
def execLdAMemNn (nn : Word) (s : State) : Result := loadA nn (fetch16 (fetchOp s))

/-- Store A at an address, MEMPTR takes `A : ((address + 1) mod 256)` (R161 to R163); `t` is the state after the
fetches. -/
def storeA (a : Word) (t : State) : Result :=
  .next { store8 a t.a t with memptr := t.a ++ (loByte a + 1) }

/-- `LD (BC),A` (R161). -/
def execLdMemBcA (s : State) : Result := storeA s.bc (fetchOp s)

/-- `LD (DE),A` (R162). -/
def execLdMemDeA (s : State) : Result := storeA s.de (fetchOp s)

/-- `LD (nn),A` (R163). -/
def execLdMemNnA (nn : Word) (s : State) : Result := storeA nn (fetch16 (fetchOp s))

/-- The two fetches and the internal T-state at `ir` of the I and R loads (R164 to R167): `ir` is formed after the
fetches and before any write (D19). -/
def fetchIr (s : State) : State :=
  let t := fetchOp2 s
  internal t.ir 1 t

/-- `LD A,I` (R164). -/
def execLdAI (s : State) : Result :=
  let t := fetchIr s
  .next { t with a := t.i, f := ldAirFlags t.f t.i t.iff2 }

/-- `LD A,R` (R165): R has been incremented twice. -/
def execLdAR (s : State) : Result :=
  let t := fetchIr s
  .next { t with a := t.r, f := ldAirFlags t.f t.r t.iff2 }

/-- `LD I,A` (R166). -/
def execLdIA (s : State) : Result :=
  let t := fetchIr s
  .next { t with i := t.a }

/-- `LD R,A` (R167): the value written is not incremented. -/
def execLdRA (s : State) : Result :=
  let t := fetchIr s
  .next { t with r := t.a }

/-- `LD p,p'` (R168). -/
def execLdPP (xy : XY) (p p' : P8) (s : State) : Result := .next (setP8 xy p (getP8 s xy p') (fetchOp2 s))

/-- `LD XYH,n` and `LD XYL,n` (R169). -/
def execLdXyHalfN (xy : XY) (j : Half) (n : Byte) (s : State) : Result :=
  .next (setHalf xy j n (fetch8 (fetchOp2 s)))

end Sys2Proof.Machine
end

