-- ==== Sys2Proof/Machine/Rotate.lean ====
section
/-! DEFINITION. The rotate and shift group (46_rotate_shift R360 to R398). -/

namespace Sys2Proof.Machine

/-- `RLCA` (R360). -/
def execRlca (s : State) : Result :=
  let a := s.a.extractLsb' 0 7 ++ s.a.extractLsb' 7 1
  .next { fetchOp s with a := a, f := accRotFlags s.f a (s.a.getLsbD 7) }

/-- `RLA` (R361). -/
def execRla (s : State) : Result :=
  let a := s.a.extractLsb' 0 7 ++ BitVec.ofBool (flagC s.f)
  .next { fetchOp s with a := a, f := accRotFlags s.f a (s.a.getLsbD 7) }

/-- `RRCA` (R362). -/
def execRrca (s : State) : Result :=
  let a := s.a.extractLsb' 0 1 ++ s.a.extractLsb' 1 7
  .next { fetchOp s with a := a, f := accRotFlags s.f a (s.a.getLsbD 0) }

/-- `RRA` (R363). -/
def execRra (s : State) : Result :=
  let a := BitVec.ofBool (flagC s.f) ++ s.a.extractLsb' 1 7
  .next { fetchOp s with a := a, f := accRotFlags s.f a (s.a.getLsbD 0) }

/-- The form with a register operand (46_rotate_shift section 3). -/
def rotReg (op : Byte → Bool → Byte × Byte) (r : R8) (s : State) : Result :=
  .next (setR8 r (op (getR8 s r) (flagC s.f)).1 { fetchOp2 s with f := (op (getR8 s r) (flagC s.f)).2 })

/-- The form with the operand at HL. -/
def rotHl (op : Byte → Bool → Byte × Byte) (s : State) : Result :=
  let rf := op (read8 s s.hl) (flagC s.f)
  .next { modify s.hl rf.1 (fetchOp2 s) with f := rf.2 }

/-- The indexed form: the result goes to memory; MEMPTR takes the address. -/
def rotIndexed (op : Byte → Bool → Byte × Byte) (xy : XY) (d : Byte) (s : State) : State :=
  let rf := op (read8 s (indexAddr s xy d)) (flagC s.f)
  { modify (indexAddr s xy d) rf.1 (indexed4 xy d s) with f := rf.2 }

/-- The form `(XY+d)`. -/
def rotXy (op : Byte → Bool → Byte × Byte) (xy : XY) (d : Byte) (s : State) : Result :=
  .next (rotIndexed op xy d s)

/-- The form `(XY+d),r`: the result is also copied into a register (30_encoding R123), whether or not memory took it. -/
def rotXyR (op : Byte → Bool → Byte × Byte) (xy : XY) (d : Byte) (r : R8) (s : State) : Result :=
  .next (setR8 r (op (read8 s (indexAddr s xy d)) (flagC s.f)).1 (rotIndexed op xy d s))

/-- `RLC r` (R365). -/
def execRlcR (r : R8) (s : State) : Result := rotReg rlc8 r s
/-- `RLC (HL)` (R366). -/
def execRlcMemHl (s : State) : Result := rotHl rlc8 s
/-- `RLC (XY+d)` (R367). -/
def execRlcMemXy (xy : XY) (d : Byte) (s : State) : Result := rotXy rlc8 xy d s
/-- `RLC (XY+d),r` (R368). -/
def execRlcMemXyR (xy : XY) (d : Byte) (r : R8) (s : State) : Result := rotXyR rlc8 xy d r s

/-- `RRC r` (R369). -/
def execRrcR (r : R8) (s : State) : Result := rotReg rrc8 r s
/-- `RRC (HL)` (R370). -/
def execRrcMemHl (s : State) : Result := rotHl rrc8 s
/-- `RRC (XY+d)` (R371). -/
def execRrcMemXy (xy : XY) (d : Byte) (s : State) : Result := rotXy rrc8 xy d s
/-- `RRC (XY+d),r` (R372). -/
def execRrcMemXyR (xy : XY) (d : Byte) (r : R8) (s : State) : Result := rotXyR rrc8 xy d r s

/-- `RL r` (R373). -/
def execRlR (r : R8) (s : State) : Result := rotReg rl8 r s
/-- `RL (HL)` (R374). -/
def execRlMemHl (s : State) : Result := rotHl rl8 s
/-- `RL (XY+d)` (R375). -/
def execRlMemXy (xy : XY) (d : Byte) (s : State) : Result := rotXy rl8 xy d s
/-- `RL (XY+d),r` (R376). -/
def execRlMemXyR (xy : XY) (d : Byte) (r : R8) (s : State) : Result := rotXyR rl8 xy d r s

/-- `RR r` (R377). -/
def execRrR (r : R8) (s : State) : Result := rotReg rr8 r s
/-- `RR (HL)` (R378). -/
def execRrMemHl (s : State) : Result := rotHl rr8 s
/-- `RR (XY+d)` (R379). -/
def execRrMemXy (xy : XY) (d : Byte) (s : State) : Result := rotXy rr8 xy d s
/-- `RR (XY+d),r` (R380). -/
def execRrMemXyR (xy : XY) (d : Byte) (r : R8) (s : State) : Result := rotXyR rr8 xy d r s

/-- `SLA r` (R381). -/
def execSlaR (r : R8) (s : State) : Result := rotReg sla8 r s
/-- `SLA (HL)` (R382). -/
def execSlaMemHl (s : State) : Result := rotHl sla8 s
/-- `SLA (XY+d)` (R383). -/
def execSlaMemXy (xy : XY) (d : Byte) (s : State) : Result := rotXy sla8 xy d s
/-- `SLA (XY+d),r` (R384). -/
def execSlaMemXyR (xy : XY) (d : Byte) (r : R8) (s : State) : Result := rotXyR sla8 xy d r s

/-- `SRA r` (R385). -/
def execSraR (r : R8) (s : State) : Result := rotReg sra8 r s
/-- `SRA (HL)` (R386). -/
def execSraMemHl (s : State) : Result := rotHl sra8 s
/-- `SRA (XY+d)` (R387). -/
def execSraMemXy (xy : XY) (d : Byte) (s : State) : Result := rotXy sra8 xy d s
/-- `SRA (XY+d),r` (R388). -/
def execSraMemXyR (xy : XY) (d : Byte) (r : R8) (s : State) : Result := rotXyR sra8 xy d r s

/-- `SLL r` (R389). -/
def execSllR (r : R8) (s : State) : Result := rotReg sll8 r s
/-- `SLL (HL)` (R390). -/
def execSllMemHl (s : State) : Result := rotHl sll8 s
/-- `SLL (XY+d)` (R391). -/
def execSllMemXy (xy : XY) (d : Byte) (s : State) : Result := rotXy sll8 xy d s
/-- `SLL (XY+d),r` (R392). -/
def execSllMemXyR (xy : XY) (d : Byte) (r : R8) (s : State) : Result := rotXyR sll8 xy d r s

/-- `SRL r` (R393). -/
def execSrlR (r : R8) (s : State) : Result := rotReg srl8 r s
/-- `SRL (HL)` (R394). -/
def execSrlMemHl (s : State) : Result := rotHl srl8 s
/-- `SRL (XY+d)` (R395). -/
def execSrlMemXy (xy : XY) (d : Byte) (s : State) : Result := rotXy srl8 xy d s
/-- `SRL (XY+d),r` (R396). -/
def execSrlMemXyR (xy : XY) (d : Byte) (r : R8) (s : State) : Result := rotXyR srl8 xy d r s

/-- `RLD` and `RRD` (R397, R398): `m` is the byte to store, `a` the new A; both from the byte at HL. -/
def rotDigits (m a : Byte) (s : State) : Result :=
  let t := store8 s.hl m (internal s.hl 4 (cycle s.hl 3 (fetchOp2 s)))
  .next { t with a := a, f := keepCFlags s.f a, memptr := s.hl + 1 }

/-- `RLD` (R397). -/
def execRld (s : State) : Result :=
  let m := read8 s s.hl
  rotDigits (m.extractLsb' 0 4 ++ s.a.extractLsb' 0 4) (s.a.extractLsb' 4 4 ++ m.extractLsb' 4 4) s

/-- `RRD` (R398). -/
def execRrd (s : State) : Result :=
  let m := read8 s s.hl
  rotDigits (s.a.extractLsb' 0 4 ++ m.extractLsb' 4 4) (s.a.extractLsb' 4 4 ++ m.extractLsb' 0 4) s

end Sys2Proof.Machine
end

