-- ==== Sys2Proof/Machine/Dispatch.lean ====
section
/-! DEFINITION. One arm per instruction: a direct call of its meaning. An instruction is run with PC at its first byte
(10_state R25); its meaning does the fetches. -/

namespace Sys2Proof.Machine

/-- Run one instruction (60_exceptions R504). -/
def exec (i : Instr) (s : State) : Host.Outcome State Fault Refusal :=
  match i with
  | .nop => Sys2Proof.Machine.execNop s
  | .exAfAf => Sys2Proof.Machine.execExAfAf s
  | .djnz e => Sys2Proof.Machine.execDjnz e s
  | .jr e => Sys2Proof.Machine.execJr e s
  | .jrNz e => Sys2Proof.Machine.execJrNz e s
  | .jrZ e => Sys2Proof.Machine.execJrZ e s
  | .jrNc e => Sys2Proof.Machine.execJrNc e s
  | .jrC e => Sys2Proof.Machine.execJrC e s
  | .ldDdNn dd nn => Sys2Proof.Machine.execLdDdNn dd nn s
  | .addHlSs ss => Sys2Proof.Machine.execAddHlSs ss s
  | .ldMemBcA => Sys2Proof.Machine.execLdMemBcA s
  | .ldAMemBc => Sys2Proof.Machine.execLdAMemBc s
  | .ldMemDeA => Sys2Proof.Machine.execLdMemDeA s
  | .ldAMemDe => Sys2Proof.Machine.execLdAMemDe s
  | .ldMemNnHl nn => Sys2Proof.Machine.execLdMemNnHl nn s
  | .ldHlMemNn nn => Sys2Proof.Machine.execLdHlMemNn nn s
  | .ldMemNnA nn => Sys2Proof.Machine.execLdMemNnA nn s
  | .ldAMemNn nn => Sys2Proof.Machine.execLdAMemNn nn s
  | .incSs ss => Sys2Proof.Machine.execIncSs ss s
  | .decSs ss => Sys2Proof.Machine.execDecSs ss s
  | .incR r => Sys2Proof.Machine.execIncR r s
  | .incMemHl => Sys2Proof.Machine.execIncMemHl s
  | .decR r => Sys2Proof.Machine.execDecR r s
  | .decMemHl => Sys2Proof.Machine.execDecMemHl s
  | .ldRN r n => Sys2Proof.Machine.execLdRN r n s
  | .ldMemHlN n => Sys2Proof.Machine.execLdMemHlN n s
  | .rlca => Sys2Proof.Machine.execRlca s
  | .rrca => Sys2Proof.Machine.execRrca s
  | .rla => Sys2Proof.Machine.execRla s
  | .rra => Sys2Proof.Machine.execRra s
  | .daa => Sys2Proof.Machine.execDaa s
  | .cpl => Sys2Proof.Machine.execCpl s
  | .scf => Sys2Proof.Machine.execScf s
  | .ccf => Sys2Proof.Machine.execCcf s
  | .ldRR r r' => Sys2Proof.Machine.execLdRR r r' s
  | .ldRMemHl r => Sys2Proof.Machine.execLdRMemHl r s
  | .ldMemHlR r => Sys2Proof.Machine.execLdMemHlR r s
  | .halt => Sys2Proof.Machine.execHalt s
  | .addR r => Sys2Proof.Machine.execAddR r s
  | .addMemHl => Sys2Proof.Machine.execAddMemHl s
  | .addN n => Sys2Proof.Machine.execAddN n s
  | .adcR r => Sys2Proof.Machine.execAdcR r s
  | .adcMemHl => Sys2Proof.Machine.execAdcMemHl s
  | .adcN n => Sys2Proof.Machine.execAdcN n s
  | .subR r => Sys2Proof.Machine.execSubR r s
  | .subMemHl => Sys2Proof.Machine.execSubMemHl s
  | .subN n => Sys2Proof.Machine.execSubN n s
  | .sbcR r => Sys2Proof.Machine.execSbcR r s
  | .sbcMemHl => Sys2Proof.Machine.execSbcMemHl s
  | .sbcN n => Sys2Proof.Machine.execSbcN n s
  | .andR r => Sys2Proof.Machine.execAndR r s
  | .andMemHl => Sys2Proof.Machine.execAndMemHl s
  | .andN n => Sys2Proof.Machine.execAndN n s
  | .xorR r => Sys2Proof.Machine.execXorR r s
  | .xorMemHl => Sys2Proof.Machine.execXorMemHl s
  | .xorN n => Sys2Proof.Machine.execXorN n s
  | .orR r => Sys2Proof.Machine.execOrR r s
  | .orMemHl => Sys2Proof.Machine.execOrMemHl s
  | .orN n => Sys2Proof.Machine.execOrN n s
  | .cpR r => Sys2Proof.Machine.execCpR r s
  | .cpMemHl => Sys2Proof.Machine.execCpMemHl s
  | .cpN n => Sys2Proof.Machine.execCpN n s
  | .retCc cc => Sys2Proof.Machine.execRetCc cc s
  | .popQq qq => Sys2Proof.Machine.execPopQq qq s
  | .ret => Sys2Proof.Machine.execRet s
  | .exx => Sys2Proof.Machine.execExx s
  | .jpHl => Sys2Proof.Machine.execJpHl s
  | .ldSpHl => Sys2Proof.Machine.execLdSpHl s
  | .jpCcNn cc nn => Sys2Proof.Machine.execJpCcNn cc nn s
  | .jpNn nn => Sys2Proof.Machine.execJpNn nn s
  | .outNA n => Sys2Proof.Machine.execOutNA n s
  | .inAN n => Sys2Proof.Machine.execInAN n s
  | .exSpHl => Sys2Proof.Machine.execExSpHl s
  | .exDeHl => Sys2Proof.Machine.execExDeHl s
  | .di => Sys2Proof.Machine.execDi s
  | .ei => Sys2Proof.Machine.execEi s
  | .callCcNn cc nn => Sys2Proof.Machine.execCallCcNn cc nn s
  | .pushQq qq => Sys2Proof.Machine.execPushQq qq s
  | .callNn nn => Sys2Proof.Machine.execCallNn nn s
  | .rst t => Sys2Proof.Machine.execRst t s
  | .rlcR r => Sys2Proof.Machine.execRlcR r s
  | .rlcMemHl => Sys2Proof.Machine.execRlcMemHl s
  | .rrcR r => Sys2Proof.Machine.execRrcR r s
  | .rrcMemHl => Sys2Proof.Machine.execRrcMemHl s
  | .rlR r => Sys2Proof.Machine.execRlR r s
  | .rlMemHl => Sys2Proof.Machine.execRlMemHl s
  | .rrR r => Sys2Proof.Machine.execRrR r s
  | .rrMemHl => Sys2Proof.Machine.execRrMemHl s
  | .slaR r => Sys2Proof.Machine.execSlaR r s
  | .slaMemHl => Sys2Proof.Machine.execSlaMemHl s
  | .sraR r => Sys2Proof.Machine.execSraR r s
  | .sraMemHl => Sys2Proof.Machine.execSraMemHl s
  | .sllR r => Sys2Proof.Machine.execSllR r s
  | .sllMemHl => Sys2Proof.Machine.execSllMemHl s
  | .srlR r => Sys2Proof.Machine.execSrlR r s
  | .srlMemHl => Sys2Proof.Machine.execSrlMemHl s
  | .bitR bit r => Sys2Proof.Machine.execBitR bit r s
  | .bitMemHl bit => Sys2Proof.Machine.execBitMemHl bit s
  | .resR bit r => Sys2Proof.Machine.execResR bit r s
  | .resMemHl bit => Sys2Proof.Machine.execResMemHl bit s
  | .setR bit r => Sys2Proof.Machine.execSetR bit r s
  | .setMemHl bit => Sys2Proof.Machine.execSetMemHl bit s
  | .inRC r => Sys2Proof.Machine.execInRC r s
  | .inC => Sys2Proof.Machine.execInC s
  | .outCR r => Sys2Proof.Machine.execOutCR r s
  | .outC0 => Sys2Proof.Machine.execOutC0 s
  | .sbcHlSs ss => Sys2Proof.Machine.execSbcHlSs ss s
  | .adcHlSs ss => Sys2Proof.Machine.execAdcHlSs ss s
  | .ldMemNnDd dd nn => Sys2Proof.Machine.execLdMemNnDd dd nn s
  | .ldDdMemNn dd nn => Sys2Proof.Machine.execLdDdMemNn dd nn s
  | .neg u => Sys2Proof.Machine.execNeg u s
  | .reti => Sys2Proof.Machine.execReti s
  | .retn u => Sys2Proof.Machine.execRetn u s
  | .im0 u v => Sys2Proof.Machine.execIm0 u v s
  | .im1 u => Sys2Proof.Machine.execIm1 u s
  | .im2 u => Sys2Proof.Machine.execIm2 u s
  | .ldIA => Sys2Proof.Machine.execLdIA s
  | .ldRA => Sys2Proof.Machine.execLdRA s
  | .ldAI => Sys2Proof.Machine.execLdAI s
  | .ldAR => Sys2Proof.Machine.execLdAR s
  | .rrd => Sys2Proof.Machine.execRrd s
  | .rld => Sys2Proof.Machine.execRld s
  | .nopEd7 u => Sys2Proof.Machine.execNopEd7 u s
  | .nopEd0 x => Sys2Proof.Machine.execNopEd0 x s
  | .nopEd8 x => Sys2Proof.Machine.execNopEd8 x s
  | .nopEdA x x' => Sys2Proof.Machine.execNopEdA x x' s
  | .nopEdC x => Sys2Proof.Machine.execNopEdC x s
  | .ldi => Sys2Proof.Machine.execLdi s
  | .cpi => Sys2Proof.Machine.execCpi s
  | .ini => Sys2Proof.Machine.execIni s
  | .outi => Sys2Proof.Machine.execOuti s
  | .ldd => Sys2Proof.Machine.execLdd s
  | .cpd => Sys2Proof.Machine.execCpd s
  | .ind => Sys2Proof.Machine.execInd s
  | .outd => Sys2Proof.Machine.execOutd s
  | .ldir => Sys2Proof.Machine.execLdir s
  | .cpir => Sys2Proof.Machine.execCpir s
  | .inir => Sys2Proof.Machine.execInir s
  | .otir => Sys2Proof.Machine.execOtir s
  | .lddr => Sys2Proof.Machine.execLddr s
  | .cpdr => Sys2Proof.Machine.execCpdr s
  | .indr => Sys2Proof.Machine.execIndr s
  | .otdr => Sys2Proof.Machine.execOtdr s
  | .addXyPp xy pp => Sys2Proof.Machine.execAddXyPp xy pp s
  | .ldXyNn xy nn => Sys2Proof.Machine.execLdXyNn xy nn s
  | .ldMemNnXy xy nn => Sys2Proof.Machine.execLdMemNnXy xy nn s
  | .incXy xy => Sys2Proof.Machine.execIncXy xy s
  | .incXyHalf xy j => Sys2Proof.Machine.execIncXyHalf xy j s
  | .decXyHalf xy j => Sys2Proof.Machine.execDecXyHalf xy j s
  | .ldXyHalfN xy j n => Sys2Proof.Machine.execLdXyHalfN xy j n s
  | .ldXyMemNn xy nn => Sys2Proof.Machine.execLdXyMemNn xy nn s
  | .decXy xy => Sys2Proof.Machine.execDecXy xy s
  | .incMemXy xy d => Sys2Proof.Machine.execIncMemXy xy d s
  | .decMemXy xy d => Sys2Proof.Machine.execDecMemXy xy d s
  | .ldMemXyN xy d n => Sys2Proof.Machine.execLdMemXyN xy d n s
  | .ldRMemXy xy r d => Sys2Proof.Machine.execLdRMemXy xy r d s
  | .ldMemXyR xy r d => Sys2Proof.Machine.execLdMemXyR xy r d s
  | .ldPP xy p p' => Sys2Proof.Machine.execLdPP xy p p' s
  | .addMemXy xy d => Sys2Proof.Machine.execAddMemXy xy d s
  | .addXyHalf xy j => Sys2Proof.Machine.execAddXyHalf xy j s
  | .adcMemXy xy d => Sys2Proof.Machine.execAdcMemXy xy d s
  | .adcXyHalf xy j => Sys2Proof.Machine.execAdcXyHalf xy j s
  | .subMemXy xy d => Sys2Proof.Machine.execSubMemXy xy d s
  | .subXyHalf xy j => Sys2Proof.Machine.execSubXyHalf xy j s
  | .sbcMemXy xy d => Sys2Proof.Machine.execSbcMemXy xy d s
  | .sbcXyHalf xy j => Sys2Proof.Machine.execSbcXyHalf xy j s
  | .andMemXy xy d => Sys2Proof.Machine.execAndMemXy xy d s
  | .andXyHalf xy j => Sys2Proof.Machine.execAndXyHalf xy j s
  | .xorMemXy xy d => Sys2Proof.Machine.execXorMemXy xy d s
  | .xorXyHalf xy j => Sys2Proof.Machine.execXorXyHalf xy j s
  | .orMemXy xy d => Sys2Proof.Machine.execOrMemXy xy d s
  | .orXyHalf xy j => Sys2Proof.Machine.execOrXyHalf xy j s
  | .cpMemXy xy d => Sys2Proof.Machine.execCpMemXy xy d s
  | .cpXyHalf xy j => Sys2Proof.Machine.execCpXyHalf xy j s
  | .popXy xy => Sys2Proof.Machine.execPopXy xy s
  | .exSpXy xy => Sys2Proof.Machine.execExSpXy xy s
  | .pushXy xy => Sys2Proof.Machine.execPushXy xy s
  | .jpXy xy => Sys2Proof.Machine.execJpXy xy s
  | .ldSpXy xy => Sys2Proof.Machine.execLdSpXy xy s
  | .rlcMemXy xy d => Sys2Proof.Machine.execRlcMemXy xy d s
  | .rlcMemXyR xy d r => Sys2Proof.Machine.execRlcMemXyR xy d r s
  | .rrcMemXy xy d => Sys2Proof.Machine.execRrcMemXy xy d s
  | .rrcMemXyR xy d r => Sys2Proof.Machine.execRrcMemXyR xy d r s
  | .rlMemXy xy d => Sys2Proof.Machine.execRlMemXy xy d s
  | .rlMemXyR xy d r => Sys2Proof.Machine.execRlMemXyR xy d r s
  | .rrMemXy xy d => Sys2Proof.Machine.execRrMemXy xy d s
  | .rrMemXyR xy d r => Sys2Proof.Machine.execRrMemXyR xy d r s
  | .slaMemXy xy d => Sys2Proof.Machine.execSlaMemXy xy d s
  | .slaMemXyR xy d r => Sys2Proof.Machine.execSlaMemXyR xy d r s
  | .sraMemXy xy d => Sys2Proof.Machine.execSraMemXy xy d s
  | .sraMemXyR xy d r => Sys2Proof.Machine.execSraMemXyR xy d r s
  | .sllMemXy xy d => Sys2Proof.Machine.execSllMemXy xy d s
  | .sllMemXyR xy d r => Sys2Proof.Machine.execSllMemXyR xy d r s
  | .srlMemXy xy d => Sys2Proof.Machine.execSrlMemXy xy d s
  | .srlMemXyR xy d r => Sys2Proof.Machine.execSrlMemXyR xy d r s
  | .bitMemXy xy bit d z => Sys2Proof.Machine.execBitMemXy xy bit d z s
  | .resMemXy xy bit d => Sys2Proof.Machine.execResMemXy xy bit d s
  | .resMemXyR xy bit d r => Sys2Proof.Machine.execResMemXyR xy bit d r s
  | .setMemXy xy bit d => Sys2Proof.Machine.execSetMemXy xy bit d s
  | .setMemXyR xy bit d r => Sys2Proof.Machine.execSetMemXyR xy bit d r s
  | .noni xy => Sys2Proof.Machine.execNoni xy s

end Sys2Proof.Machine
end

