-- ==== Sys2Proof/Machine/Cpu.lean ====
section
/-! DEFINITION. The CPU's step (60_exceptions R504). -/

namespace Sys2Proof.Machine

/-- Fetch and run the instruction at PC. The decoder never fails on four bytes (30_encoding R127); if it did, the step
would fault by name (60_exceptions R501, log 14). -/
def runInstr (s : State) : Result :=
  match decode (fetchWindow s) with
  | .ok (i, _) => exec i s
  | .error _ => .fault .decodeDefect

/-- `step()` (60_exceptions R504): `inhibit` is read and cleared, then exactly one of four things is done. -/
def cpuStep (s : State) : Result :=
  let t := { s with inhibit := false }
  match stepKind s with
  | .nmi => .next (nmiResponse t)
  | .int => intResponse t
  | .haltedCycle => .next (haltedCycle t)
  | .instruction => runInstr t

end Sys2Proof.Machine
end

