-- ==== Sys2Proof/Machine/Frame.lean ====
section
/-! DEFINITION. The timing coordinator (60_exceptions R503, R520 to R522): what happens between the CPU's steps. -/

namespace Sys2Proof.Machine

/-- The first actions of a frame (R520): the request is `Idle`, the log is empty. -/
def startFrame (s : State) : State := { s with intState := .idle, log := [] }

/-- The raise check before each step (R522): once per frame, when `frame_t` has reached `INT_OFFSET`. -/
def raiseInt (s : State) : State :=
  if s.intState = .idle ∧ s.cfg.intOffset ≤ s.frameT then { s with intState := .pending } else s

/-- The late raise of a frame whose steps all began before `INT_OFFSET` (R522, corner case). -/
def raiseLate (s : State) : State :=
  if s.intState = .idle then { s with intState := .pending } else s

/-- The end of a frame (R521): the overshoot carries into the next frame. -/
def endFrame (s : State) : State :=
  let t := raiseLate s
  { t with frameT := t.frameT - frameTstates t.cfg.model }

/-- Whether the frame's budget is met (R520). -/
def frameOver (s : State) : Bool := decide (frameTstates s.cfg.model ≤ s.frameT)

/-- What the coordinator does before a step (log 6): under `frames`, the end of a finished frame and the start of the
next, then the raise check; under `single` (a host's bare `step()`, 70_reset R603) nothing. -/
def coordinate (s : State) : State :=
  match s.drive with
  | .single => s
  | .frames => raiseInt (if frameOver s then startFrame (endFrame s) else s)

end Sys2Proof.Machine
end

