-- ==== Sys2Proof/Machine/Place.lean ====
section
/-! DEFINITION. Placing an instruction where the next step fetches it: the host supplies the ROM image and RAM
(00_scope R5, 70_reset R604), so a program comes from outside the machine (log 4). -/

namespace Sys2Proof.Machine

/-- Bytes put at consecutive addresses. -/
def pokeAll (a : Word) : List Byte → State → State
  | [], s => s
  | v :: vs, s => pokeAll (a + 1) vs (poke a v s)

/-- Bytes at PC, the CPU not halted, and `inhibit` set only when the next step would take an interrupt instead of the
instruction (60_exceptions R504). -/
def placeInstr (bs : List Byte) (s : State) : State :=
  let t := { pokeAll s.pc bs s with halted := false }
  if stepKind (coordinate t) = .instruction then t else { t with inhibit := true }

end Sys2Proof.Machine
end

