-- ==== Sys2Proof/Machine/Step.lean ====
section
/-! DEFINITION. One step of the machine: what the coordinator does before it, then the CPU's step. -/

namespace Sys2Proof.Machine

/-- One step (60_exceptions R504, R520; log 6). -/
def step (s : State) : Host.Outcome State Fault Refusal := cpuStep (coordinate s)

/-- `s` with an instruction of the opcode table placed where the next step fetches it (log 4, log 8). -/
def State.withFetchWord (s : State) (nbits w : Nat) : State := placeInstr (tableBytes nbits w) s

end Sys2Proof.Machine
end

