-- ==== Sys2Proof/Machine/HostMoves.lean ====
section
/-! DEFINITION. The moves of the host (70_reset R600 to R605) besides `runFrame()` and `step()`: functions of the state,
made only between steps. What the spec leaves to a draw is an argument; a rejected move answers `none` and the state
stays (log 11). -/

namespace Sys2Proof.Machine

/-- The `POWER_ON` draw (10_state R46, D10): the registers `reset()` does not define. -/
structure PowerOn where
  a : Byte
  f : Byte
  b : Byte
  c : Byte
  d : Byte
  e : Byte
  h : Byte
  l : Byte
  a' : Byte
  f' : Byte
  b' : Byte
  c' : Byte
  d' : Byte
  e' : Byte
  h' : Byte
  l' : Byte
  ix : Word
  iy : Word
  memptr : Word
deriving DecidableEq, Repr

/-- `reset()` (R600). -/
def resetWith (p : PowerOn) (s : State) : State :=
  { s with
    pc := 0x0000, sp := 0xFFFF
    iff1 := false, iff2 := false, im := .im0
    i := 0x00, r := 0x00
    a := p.a, f := p.f, b := p.b, c := p.c, d := p.d, e := p.e, h := p.h, l := p.l
    a' := p.a', f' := p.f', b' := p.b', c' := p.c', d' := p.d', e' := p.e', h' := p.h', l' := p.l'
    ix := p.ix, iy := p.iy, memptr := p.memptr
    halted := false, inhibit := false, nmiPending := false
    intState := .idle, frameT := 0, log := []
    paging := if s.cfg.model = .m128 then 0 else s.paging }

/-- The draw of construction (R601): RAM and the port latches. -/
structure Construction where
  ram : Memory
  border : BitVec 3
  beeper : Bool
  mic : Bool
  aySel : BitVec 4
  ayReg : Vector Byte 16
deriving DecidableEq, Repr

/-- Construction (R601): a machine from its configuration, its ROM image and a draw, then `reset()`. -/
def construct (cfg : Config) (rom : Memory) (k : Construction) (p : PowerOn) (drive : Drive) : State :=
  resetWith p
    { State.reset with
      cfg := cfg, rom := rom, ram := k.ram, border := k.border, beeper := k.beeper, mic := k.mic
      aySel := k.aySel, ayReg := k.ayReg, paging := 0, drive := drive }

/-- `setKeyMatrixRow(rowIndex, bits)` (R603); out of range is rejected. -/
def setKeyMatrixRow (row bits : Nat) (s : State) : Option State :=
  if h : row < 8 then
    if bits < 32 then some { s with keyrow := s.keyrow.set row (BitVec.ofNat 5 bits) h } else none
  else none

/-- `setTapeInputBit(bit)` (R603). -/
def setTapeInputBit (bit : Bool) (s : State) : State := { s with tapeIn := bit }

/-- `readTapeOutputBit()` (R603). -/
def readTapeOutputBit (s : State) : Bool := s.mic

/-- `triggerNMI()` (R603, 60_exceptions R511). -/
def triggerNmi (s : State) : State := { s with nmiPending := true }

/-- The snapshot structure (R604): registers, RAM pages, paging. `im` is a number, so that a value outside 0 to 2 can be
rejected; `paging` 0 is also an absent one. -/
structure Snapshot where
  a : Byte
  f : Byte
  b : Byte
  c : Byte
  d : Byte
  e : Byte
  h : Byte
  l : Byte
  a' : Byte
  f' : Byte
  b' : Byte
  c' : Byte
  d' : Byte
  e' : Byte
  h' : Byte
  l' : Byte
  ix : Word
  iy : Word
  sp : Word
  pc : Word
  i : Byte
  r : Byte
  iff1 : Bool
  iff2 : Bool
  im : Nat
  pages : List (List Byte)
  paging : Byte
deriving DecidableEq, Repr

/-- The mode a number names (10_state R31). -/
def intModeOf : Nat → Option IntMode
  | 0 => some .im0
  | 1 => some .im1
  | 2 => some .im2
  | _ => none

/-- The number of a mode. -/
def intModeNum : IntMode → Nat
  | .im0 => 0
  | .im1 => 1
  | .im2 => 2

/-- The page checks of `loadSnapshot` (R604). -/
def pagesFit (model : Model) (pages : List (List Byte)) : Bool :=
  decide (pages.length = ramPages model) && pages.all fun p => decide (p.length = pageSize)

/-- `loadSnapshot(s)` (R604), `draw` the MEMPTR the rule leaves to a draw: all-or-nothing. -/
def loadSnapshot (n : Snapshot) (draw : Word) (s : State) : Option State :=
  match intModeOf n.im with
  | none => none
  | some im =>
    if pagesFit s.cfg.model n.pages = false then none
    else if s.cfg.model = .m48 ∧ n.paging ≠ 0 then none
    else some { s with
      a := n.a, f := n.f, b := n.b, c := n.c, d := n.d, e := n.e, h := n.h, l := n.l
      a' := n.a', f' := n.f', b' := n.b', c' := n.c', d' := n.d', e' := n.e', h' := n.h', l' := n.l'
      ix := n.ix, iy := n.iy, sp := n.sp, pc := n.pc, i := n.i, r := n.r
      iff1 := n.iff1, iff2 := n.iff2, im := im
      ram := Memory.ofBytes 0 n.pages.flatten
      paging := if s.cfg.model = .m128 then n.paging.extractLsb' 0 6 else s.paging
      halted := false, inhibit := false, nmiPending := false, memptr := draw }

/-- The RAM pages as lists of bytes, from page `j` on, `n` of them. -/
def dumpPages (m : Memory) (j : Nat) : Nat → List (List Byte)
  | 0 => []
  | n + 1 => m.readRange (cellKey j 0) pageSize :: dumpPages m (j + 1) n

/-- `dumpSnapshot()` (R605). -/
def dumpSnapshot (s : State) : Snapshot where
  a := s.a
  f := s.f
  b := s.b
  c := s.c
  d := s.d
  e := s.e
  h := s.h
  l := s.l
  a' := s.a'
  f' := s.f'
  b' := s.b'
  c' := s.c'
  d' := s.d'
  e' := s.e'
  h' := s.h'
  l' := s.l'
  ix := s.ix
  iy := s.iy
  sp := s.sp
  pc := s.pc
  i := s.i
  r := s.r
  iff1 := s.iff1
  iff2 := s.iff2
  im := intModeNum s.im
  pages := dumpPages s.ram 0 (ramPages s.cfg.model)
  paging := if s.cfg.model = .m128 then s.paging.setWidth 8 else 0

end Sys2Proof.Machine
end

