-- ==== Sys2Proof/Machine/RunFrame.lean ====
section
/-! DEFINITION. `runFrame()` and its result (60_exceptions R520, R523). -/

namespace Sys2Proof.Machine

/-- `FrameResult` (R523): the frame's T-states before the carry, its port write log, and the bytes of the video RAM
(20_memory R88). -/
structure FrameResult where
  completed : Nat
  log : List LogEntry
  video : List Byte
deriving DecidableEq, Repr

/-- The bytes of the video RAM: offsets 0x0000 to 0x1AFF of the displayed page (20_memory R88). -/
def videoBytes (s : State) : List Byte := s.ram.readRange (cellKey (videoPage s) 0) 6912

/-- The loop of `runFrame()` (R520), at most `fuel` steps: a step costs at least 4 T-states (R504), so a fuel of the
whole budget is never used up (log 16). -/
def frameLoop : Nat → State → Result
  | 0, s => .next s
  | fuel + 1, s =>
    if frameOver s then .next s
    else match cpuStep (raiseInt s) with
      | .next t => frameLoop fuel t
      | .fault e => .fault e
      | .refused e => .refused e

/-- `runFrame()` (R520). -/
def runFrame (s : State) : Host.Outcome (State × FrameResult) Fault Refusal :=
  match frameLoop (frameTstates s.cfg.model) (startFrame s) with
  | .next t => .next (endFrame t, { completed := t.frameT, log := t.log, video := videoBytes t })
  | .fault e => .fault e
  | .refused e => .refused e

end Sys2Proof.Machine
end

