-- ==== Sys2Proof/Safety.lean ====
section
/-! DEFINITION. The terms claims are stated in: bus-cycle strings and the time they take (70_reset R611, R612), what an
instruction's fetches and time do to a state, the parts of the state an instruction does not touch, the invariant, and
the end of a run. -/

namespace Sys2Proof.Machine

/-- An element of a bus-cycle string (70_reset R612). -/
inductive Cycle where
  /-- `a:n`, a memory cycle -/
  | mem (a : Word) (n : Nat)
  /-- `a:1 xk`, internal T-states -/
  | idle (a : Word) (k : Nat)
  /-- `IO(r):4` or `IO(w):4` with its port address -/
  | io (p : Word)
  /-- `ack:n` -/
  | ack (n : Nat)
deriving DecidableEq, Repr

/-- How long a cycle that starts at `t` waits on address `a`: `Delay(t)` if the page mapped there is contended (R611,
R614); the configuration and the paging latch decide it. -/
def waitAt (cfg : Config) (paging : BitVec 6) (a : Word) (t : Nat) : Nat :=
  if contendedPage cfg.model (pageMap cfg.model paging (slotOf a)) then delay cfg t else 0

/-- When `k` internal T-states at `a` end that start at `t` (R616). -/
def idleEnd (cfg : Config) (paging : BitVec 6) (a : Word) (t : Nat) : Nat → Nat
  | 0 => t
  | k + 1 => idleEnd cfg paging a (t + waitAt cfg paging a t + 1) k

/-- When a part `C:n` of an I/O cycle ends that starts at `t` (R617). -/
def partEnd (cfg : Config) (n t : Nat) : Nat := t + delay cfg t + n

/-- When an I/O cycle ends that starts at `t`: the four rows of the table of R617. -/
def ioEnd (cfg : Config) (paging : BitVec 6) (p : Word) (t : Nat) : Nat :=
  match contendedPage cfg.model (pageMap cfg.model paging (slotOf p)), p.getLsbD 0 with
  | false, true => t + 4
  | false, false => partEnd cfg 3 (t + 1)
  | true, false => partEnd cfg 3 (partEnd cfg 1 t)
  | true, true => partEnd cfg 1 (partEnd cfg 1 (partEnd cfg 1 (partEnd cfg 1 t)))

/-- When an element ends that starts at `t` (R611). -/
def Cycle.finish (cfg : Config) (paging : BitVec 6) (t : Nat) : Cycle → Nat
  | .mem a n => t + waitAt cfg paging a t + n
  | .idle a k => idleEnd cfg paging a t k
  | .io p => ioEnd cfg paging p t
  | .ack n => t + n

/-- When a bus-cycle string ends that starts at `t` (R611). -/
def timeAfter (cfg : Config) (paging : BitVec 6) (t : Nat) : List Cycle → Nat
  | [] => t
  | c :: cs => timeAfter cfg paging (c.finish cfg paging t) cs

/-- R after `m` opcode fetches: bits 6:0 count, bit 7 stays (10_state R29). -/
def refreshed (r : Byte) (m : Nat) : Byte := r.extractLsb' 7 1 ++ (r.extractLsb' 0 7 + BitVec.ofNat 7 m)

/-- What the fetches and the time of an instruction do and nothing else: `len` bytes fetched, `m` of them opcode
fetches, and the bus-cycle string `cs` passed. -/
def ran (s : State) (len m : Nat) (cs : List Cycle) : State :=
  { s with pc := s.pc + BitVec.ofNat 16 len, r := refreshed s.r m, frameT := timeAfter s.cfg s.paging s.frameT cs }

/-- The cycles `pc:4` (40_load8 and others, format U1). -/
def cyc1 (s : State) : List Cycle := [.mem s.pc 4]

/-- The cycles `pc:4,pc+1:4`. -/
def cyc2 (s : State) : List Cycle := [.mem s.pc 4, .mem (s.pc + 1) 4]

/-- The cycles `pc:4,pc+1:3,pc+2:3`. -/
def cycNn1 (s : State) : List Cycle := [.mem s.pc 4, .mem (s.pc + 1) 3, .mem (s.pc + 2) 3]

/-- The cycles `pc:4,pc+1:4,pc+2:3,pc+3:3`. -/
def cycNn2 (s : State) : List Cycle := [.mem s.pc 4, .mem (s.pc + 1) 4, .mem (s.pc + 2) 3, .mem (s.pc + 3) 3]

/-- The cycles `pc:4,pc+1:4,pc+2:3,pc+2:1 x5` of the indexed forms. -/
def cycXy (s : State) : List Cycle := [.mem s.pc 4, .mem (s.pc + 1) 4, .mem (s.pc + 2) 3, .idle (s.pc + 2) 5]

/-- The cycles `pc:4,pc+1:4,pc+2:3,pc+3:3,pc+3:1 x2` of the four-byte indexed forms. -/
def cycXy4 (s : State) : List Cycle :=
  [.mem s.pc 4, .mem (s.pc + 1) 4, .mem (s.pc + 2) 3, .mem (s.pc + 3) 3, .idle (s.pc + 3) 2]

/-- The cycles `a:3,a:1,a(w):3` of a read-modify-write. -/
def cycRmw (a : Word) : List Cycle := [.mem a 3, .idle a 1, .mem a 3]

/-- The cycles `sp-1(w):3,sp-2(w):3` of a push. -/
def cycPush (s : State) : List Cycle := [.mem (s.sp - 1) 3, .mem (s.sp - 2) 3]

/-- The cycles `sp:3,sp+1:3` of a pop. -/
def cycPop (s : State) : List Cycle := [.mem s.sp 3, .mem (s.sp + 1) 3]

/-- The `ir` address after `m` opcode fetches (70_reset R612). -/
def irAfter (s : State) (m : Nat) : Word := s.i ++ refreshed s.r m

/-- The byte of RAM or ROM an address names: its page and its offset. Two addresses with the same place name one byte
(20_memory R83). -/
def placeOf (s : State) (a : Word) : Page × Nat := (pageAt s a, offsetOf a)

/-- The bytes of a word written low byte first (20_memory R74). -/
def written16 (a v : Word) (s : State) : State := write8 (a + 1) (hiByte v) (write8 a (loByte v) s)

/-- The bytes of a push (20_memory R75): the high byte at SP−1, then the low byte at SP−2; SP goes down by 2. -/
def pushed16 (v : Word) (s : State) : State :=
  setSp (s.sp - 2) (write8 (s.sp - 2) (loByte v) (write8 (s.sp - 1) (hiByte v) s))

/-- The invariant of the machine: both banks in canonical form and within their pages, and the paging latch 0 on the
model that has none. -/
structure State.Inv (s : State) : Prop where
  rom_wf : s.rom.wf = true
  ram_wf : s.ram.wf = true
  rom_below : s.rom.below (romPages s.cfg.model * pageSize) = true
  ram_below : s.ram.below (ramPages s.cfg.model * pageSize) = true
  paging_m48 : s.cfg.model = .m48 → s.paging = 0

/-- What no step changes: the configuration, the ROM, the host's inputs, the model's drive (00_scope R7, 10_state R39,
R42). -/
def SameInputs (s t : State) : Prop :=
  t.cfg = s.cfg ∧ t.rom = s.rom ∧ t.keyrow = s.keyrow ∧ t.tapeIn = s.tapeIn ∧ t.drive = s.drive

/-- The latches and the log that port writes change (10_state R40 to R44). -/
def SamePorts (s t : State) : Prop :=
  t.paging = s.paging ∧ t.border = s.border ∧ t.beeper = s.beeper ∧ t.mic = s.mic ∧ t.aySel = s.aySel
    ∧ t.ayReg = s.ayReg ∧ t.log = s.log

/-- The interrupt state (10_state R30 to R32, R34 to R36). -/
def SameInterrupts (s t : State) : Prop :=
  t.iff1 = s.iff1 ∧ t.iff2 = s.iff2 ∧ t.im = s.im ∧ t.halted = s.halted ∧ t.inhibit = s.inhibit
    ∧ t.nmiPending = s.nmiPending ∧ t.intState = s.intState

/-- The shadow set (10_state R21). -/
def SameShadow (s t : State) : Prop :=
  t.a' = s.a' ∧ t.f' = s.f' ∧ t.b' = s.b' ∧ t.c' = s.c' ∧ t.d' = s.d' ∧ t.e' = s.e' ∧ t.h' = s.h' ∧ t.l' = s.l'

/-- The end of a run (70_reset R620). -/
def State.ended (s : State) : Prop := s.halted = true ∧ s.iff1 = false ∧ s.nmiPending = false

/-! ### The operations of the arithmetic and rotate forms, by their field in the opcode -/

/-- The accumulator operations: the field `a` of 30_encoding R116. -/
inductive AluOp where
  | add | adc | sub | sbc | and | xor | or | cp
deriving DecidableEq, Repr

/-- The value of the field (R116). -/
def AluOp.code : AluOp → BitVec 3
  | .add => 0 | .adc => 1 | .sub => 2 | .sbc => 3 | .and => 4 | .xor => 5 | .or => 6 | .cp => 7

/-- `alu8` (43_arith8 R257): the new A and F from A, the operand and `F.C`. -/
def AluOp.result : AluOp → Byte → Byte → Bool → Byte × Byte
  | .add, a, v, _ => add8 a v false
  | .adc, a, v, c => add8 a v c
  | .sub, a, v, _ => sub8 a v false
  | .sbc, a, v, c => sub8 a v c
  | .and, a, v, _ => and8 a v
  | .xor, a, v, _ => xor8 a v
  | .or, a, v, _ => or8 a v
  | .cp, a, v, _ => (a, cp8 a v)

/-- The instruction with a register operand. -/
def AluOp.onReg : AluOp → R8 → Instr
  | .add => .addR
  | .adc => .adcR
  | .sub => .subR
  | .sbc => .sbcR
  | .and => .andR
  | .xor => .xorR
  | .or => .orR
  | .cp => .cpR

/-- The instruction with an immediate operand. -/
def AluOp.onImm : AluOp → Byte → Instr
  | .add => .addN
  | .adc => .adcN
  | .sub => .subN
  | .sbc => .sbcN
  | .and => .andN
  | .xor => .xorN
  | .or => .orN
  | .cp => .cpN

/-- The instruction on the byte at HL. -/
def AluOp.onMemHl : AluOp → Instr
  | .add => .addMemHl
  | .adc => .adcMemHl
  | .sub => .subMemHl
  | .sbc => .sbcMemHl
  | .and => .andMemHl
  | .xor => .xorMemHl
  | .or => .orMemHl
  | .cp => .cpMemHl

/-- The instruction on an indexed byte. -/
def AluOp.onMemXy : AluOp → XY → Byte → Instr
  | .add => .addMemXy
  | .adc => .adcMemXy
  | .sub => .subMemXy
  | .sbc => .sbcMemXy
  | .and => .andMemXy
  | .xor => .xorMemXy
  | .or => .orMemXy
  | .cp => .cpMemXy

/-- The instruction on a half of an index register. -/
def AluOp.onHalf : AluOp → XY → Half → Instr
  | .add => .addXyHalf
  | .adc => .adcXyHalf
  | .sub => .subXyHalf
  | .sbc => .sbcXyHalf
  | .and => .andXyHalf
  | .xor => .xorXyHalf
  | .or => .orXyHalf
  | .cp => .cpXyHalf

/-- The rotates and shifts: the field `o` of 30_encoding R117. -/
inductive RotOp where
  | rlc | rrc | rl | rr | sla | sra | sll | srl
deriving DecidableEq, Repr

/-- The value of the field (R117). -/
def RotOp.code : RotOp → BitVec 3
  | .rlc => 0 | .rrc => 1 | .rl => 2 | .rr => 3 | .sla => 4 | .sra => 5 | .sll => 6 | .srl => 7

/-- `rotop` (46_rotate_shift R364): the result and F from the value and `F.C`. -/
def RotOp.result : RotOp → Byte → Bool → Byte × Byte
  | .rlc => rlc8
  | .rrc => rrc8
  | .rl => rl8
  | .rr => rr8
  | .sla => sla8
  | .sra => sra8
  | .sll => sll8
  | .srl => srl8

/-- The instruction on a register. -/
def RotOp.onReg : RotOp → R8 → Instr
  | .rlc => .rlcR
  | .rrc => .rrcR
  | .rl => .rlR
  | .rr => .rrR
  | .sla => .slaR
  | .sra => .sraR
  | .sll => .sllR
  | .srl => .srlR

/-- The instruction on the byte at HL. -/
def RotOp.onMemHl : RotOp → Instr
  | .rlc => .rlcMemHl
  | .rrc => .rrcMemHl
  | .rl => .rlMemHl
  | .rr => .rrMemHl
  | .sla => .slaMemHl
  | .sra => .sraMemHl
  | .sll => .sllMemHl
  | .srl => .srlMemHl

/-- The instruction on an indexed byte. -/
def RotOp.onMemXy : RotOp → XY → Byte → Instr
  | .rlc => .rlcMemXy
  | .rrc => .rrcMemXy
  | .rl => .rlMemXy
  | .rr => .rrMemXy
  | .sla => .slaMemXy
  | .sra => .sraMemXy
  | .sll => .sllMemXy
  | .srl => .srlMemXy

/-- The instruction on an indexed byte, with a register copy. -/
def RotOp.onMemXyR : RotOp → XY → Byte → R8 → Instr
  | .rlc => .rlcMemXyR
  | .rrc => .rrcMemXyR
  | .rl => .rlMemXyR
  | .rr => .rrMemXyR
  | .sla => .slaMemXyR
  | .sra => .sraMemXyR
  | .sll => .sllMemXyR
  | .srl => .srlMemXyR

/-! ### What an instruction may write -/

/-- The registers but PC, R and the paging latch, each by name (10_state R20 to R24, R28, R33). -/
inductive Reg where
  | a | f | b | c | d | e | h | l
  | a' | f' | b' | c' | d' | e' | h' | l'
  | ix | iy | sp | i | memptr
deriving DecidableEq, Repr

/-- The value of a register, as a number. -/
def Reg.value (s : State) : Reg → Nat
  | .a => s.a.toNat | .f => s.f.toNat | .b => s.b.toNat | .c => s.c.toNat | .d => s.d.toNat | .e => s.e.toNat
  | .h => s.h.toNat | .l => s.l.toNat | .a' => s.a'.toNat | .f' => s.f'.toNat | .b' => s.b'.toNat | .c' => s.c'.toNat
  | .d' => s.d'.toNat | .e' => s.e'.toNat | .h' => s.h'.toNat | .l' => s.l'.toNat | .ix => s.ix.toNat
  | .iy => s.iy.toNat | .sp => s.sp.toNat | .i => s.i.toNat | .memptr => s.memptr.toNat

/-- The register a code names (30_encoding R113). -/
def Reg.ofR8 : R8 → Reg
  | .b => .b | .c => .c | .d => .d | .e => .e | .h => .h | .l => .l | .a => .a

/-- The registers of a pair (30_encoding R114). -/
def Reg.ofDd : DD → List Reg
  | .bc => [.b, .c] | .de => [.d, .e] | .hl => [.h, .l] | .sp => [.sp]

/-- The registers of a pair (30_encoding R114). -/
def Reg.ofQq : QQ → List Reg
  | .bc => [.b, .c] | .de => [.d, .e] | .hl => [.h, .l] | .af => [.a, .f]

/-- The index register. -/
def Reg.ofXy : XY → Reg
  | .ix => .ix | .iy => .iy

/-- The register an operand of `LD p,p'` is or is a half of. -/
def Reg.ofP8 (xy : XY) : P8 → Reg
  | .b => .b | .c => .c | .d => .d | .e => .e | .a => .a | .xyh => Reg.ofXy xy | .xyl => Reg.ofXy xy

/-- The registers an instruction may write, PC and R apart: its destinations, the flags, and the registers its
addressing or its rule also updates (10_state R27, R33 and the Operation lines of the instruction rules). -/
def destsOf : Instr → List Reg
  | .nop | .ldMemHlN _ | .ldMemHlR _ | .halt | .jpHl | .di | .ei | .resMemHl _ | .setMemHl _ | .im0 _ _ | .im1 _
  | .im2 _ | .ldRA | .nopEd7 _ | .nopEd0 _ | .nopEd8 _ | .nopEdA _ _ | .nopEdC _ | .jpXy _ | .noni _ => []
  | .exAfAf => [.a, .f, .a', .f']
  | .djnz _ => [.b, .memptr]
  | .jr _ | .jrNz _ | .jrZ _ | .jrNc _ | .jrC _ | .ldMemBcA | .ldMemDeA | .ldMemNnHl _ | .ldMemNnA _
  | .jpCcNn _ _ | .jpNn _ | .outNA _ | .outCR _ | .outC0 | .ldMemNnDd _ _ | .ldMemNnXy _ _ | .ldMemXyN _ _ _
  | .ldMemXyR _ _ _ | .resMemXy _ _ _ | .setMemXy _ _ _ => [.memptr]
  | .ldDdNn dd _ => Reg.ofDd dd
  | .addHlSs _ | .sbcHlSs _ | .adcHlSs _ => [.f, .h, .l, .memptr]
  | .ldAMemBc | .ldAMemDe | .ldAMemNn _ | .inAN _ => [.a, .memptr]
  | .ldHlMemNn _ | .exSpHl => [.h, .l, .memptr]
  | .incSs ss | .decSs ss => Reg.ofDd ss
  | .incR r | .decR r | .rlcR r | .rrcR r | .rlR r | .rrR r | .slaR r | .sraR r | .sllR r | .srlR r
  => [.f, Reg.ofR8 r]
  | .incMemHl | .decMemHl | .scf | .ccf | .cpR _ | .cpMemHl | .cpN _ | .rlcMemHl | .rrcMemHl | .rlMemHl
  | .rrMemHl | .slaMemHl | .sraMemHl | .sllMemHl | .srlMemHl | .bitR _ _ | .bitMemHl _ | .cpXyHalf _ _ => [.f]
  | .ldRN r _ | .ldRR r _ | .ldRMemHl r | .resR _ r | .setR _ r => [Reg.ofR8 r]
  | .rlca | .rrca | .rla | .rra | .daa | .cpl | .addR _ | .addMemHl | .addN _ | .adcR _ | .adcMemHl | .adcN _
  | .subR _ | .subMemHl | .subN _ | .sbcR _ | .sbcMemHl | .sbcN _ | .andR _ | .andMemHl | .andN _ | .xorR _
  | .xorMemHl | .xorN _ | .orR _ | .orMemHl | .orN _ | .neg _ | .ldAI | .ldAR | .addXyHalf _ _ | .adcXyHalf _ _
  | .subXyHalf _ _ | .sbcXyHalf _ _ | .andXyHalf _ _ | .xorXyHalf _ _ | .orXyHalf _ _ => [.a, .f]
  | .retCc _ | .ret | .callCcNn _ _ | .callNn _ | .rst _ | .reti | .retn _ => [.sp, .memptr]
  | .popQq qq => .sp :: Reg.ofQq qq
  | .exx => [.b, .c, .d, .e, .h, .l, .b', .c', .d', .e', .h', .l']
  | .ldSpHl | .pushQq _ | .pushXy _ | .ldSpXy _ => [.sp]
  | .exDeHl => [.d, .e, .h, .l]
  | .inRC r | .rlcMemXyR _ _ r | .rrcMemXyR _ _ r | .rlMemXyR _ _ r | .rrMemXyR _ _ r | .slaMemXyR _ _ r
  | .sraMemXyR _ _ r | .sllMemXyR _ _ r | .srlMemXyR _ _ r => [.f, .memptr, Reg.ofR8 r]
  | .inC | .incMemXy _ _ | .decMemXy _ _ | .cpMemXy _ _ | .rlcMemXy _ _ | .rrcMemXy _ _ | .rlMemXy _ _
  | .rrMemXy _ _ | .slaMemXy _ _ | .sraMemXy _ _ | .sllMemXy _ _ | .srlMemXy _ _ | .bitMemXy _ _ _ _ => [.f, .memptr]
  | .ldDdMemNn dd _ => .memptr :: Reg.ofDd dd
  | .ldIA => [.i]
  | .rrd | .rld | .addMemXy _ _ | .adcMemXy _ _ | .subMemXy _ _ | .sbcMemXy _ _ | .andMemXy _ _ | .xorMemXy _ _
  | .orMemXy _ _ => [.a, .f, .memptr]
  | .ldi | .ldd => [.f, .b, .c, .d, .e, .h, .l]
  | .cpi | .cpd | .cpir | .cpdr => [.f, .b, .c, .h, .l, .memptr]
  | .ini | .outi | .ind | .outd | .inir | .otir | .indr | .otdr => [.f, .b, .h, .l, .memptr]
  | .ldir | .lddr => [.f, .b, .c, .d, .e, .h, .l, .memptr]
  | .addXyPp xy _ => [.f, Reg.ofXy xy, .memptr]
  | .ldXyNn xy _ | .incXy xy | .ldXyHalfN xy _ _ | .decXy xy => [Reg.ofXy xy]
  | .incXyHalf xy _ | .decXyHalf xy _ => [.f, Reg.ofXy xy]
  | .ldXyMemNn xy _ | .exSpXy xy => [Reg.ofXy xy, .memptr]
  | .ldRMemXy _ r _ | .resMemXyR _ _ _ r | .setMemXyR _ _ _ r => [.memptr, Reg.ofR8 r]
  | .ldPP xy p _ => [Reg.ofP8 xy p]
  | .popXy xy => [.sp, Reg.ofXy xy]

/-- The bits of F an instruction may write (10_state R27). -/
def flagMaskOf : Instr → Byte
  | .nop | .djnz _ | .jr _ | .jrNz _ | .jrZ _ | .jrNc _ | .jrC _ | .ldDdNn _ _ | .ldMemBcA | .ldAMemBc
  | .ldMemDeA | .ldAMemDe | .ldMemNnHl _ | .ldHlMemNn _ | .ldMemNnA _ | .ldAMemNn _ | .incSs _ | .decSs _
  | .ldRN _ _ | .ldMemHlN _ | .ldRR _ _ | .ldRMemHl _ | .ldMemHlR _ | .halt | .retCc _ | .ret | .exx | .jpHl
  | .ldSpHl | .jpCcNn _ _ | .jpNn _ | .outNA _ | .inAN _ | .exSpHl | .exDeHl | .di | .ei | .callCcNn _ _
  | .pushQq _ | .callNn _ | .rst _ | .resR _ _ | .resMemHl _ | .setR _ _ | .setMemHl _ | .outCR _ | .outC0
  | .ldMemNnDd _ _ | .ldDdMemNn _ _ | .reti | .retn _ | .im0 _ _ | .im1 _ | .im2 _ | .ldIA | .ldRA | .nopEd7 _
  | .nopEd0 _ | .nopEd8 _ | .nopEdA _ _ | .nopEdC _ | .ldXyNn _ _ | .ldMemNnXy _ _ | .incXy _ | .ldXyHalfN _ _ _
  | .ldXyMemNn _ _ | .decXy _ | .ldMemXyN _ _ _ | .ldRMemXy _ _ _ | .ldMemXyR _ _ _ | .ldPP _ _ _ | .popXy _
  | .exSpXy _ | .pushXy _ | .jpXy _ | .ldSpXy _ | .resMemXy _ _ _ | .resMemXyR _ _ _ _ | .setMemXy _ _ _
  | .setMemXyR _ _ _ _ | .noni _ => 0x00
  | .exAfAf | .addR _ | .addMemHl | .addN _ | .adcR _ | .adcMemHl | .adcN _ | .subR _ | .subMemHl | .subN _
  | .sbcR _ | .sbcMemHl | .sbcN _ | .andR _ | .andMemHl | .andN _ | .xorR _ | .xorMemHl | .xorN _ | .orR _
  | .orMemHl | .orN _ | .cpR _ | .cpMemHl | .cpN _ | .rlcR _ | .rlcMemHl | .rrcR _ | .rrcMemHl | .rlR _
  | .rlMemHl | .rrR _ | .rrMemHl | .slaR _ | .slaMemHl | .sraR _ | .sraMemHl | .sllR _ | .sllMemHl | .srlR _
  | .srlMemHl | .sbcHlSs _ | .adcHlSs _ | .neg _ | .ini | .outi | .ind | .outd | .inir | .otir | .indr | .otdr
  | .addMemXy _ _ | .addXyHalf _ _ | .adcMemXy _ _ | .adcXyHalf _ _ | .subMemXy _ _ | .subXyHalf _ _
  | .sbcMemXy _ _ | .sbcXyHalf _ _ | .andMemXy _ _ | .andXyHalf _ _ | .xorMemXy _ _ | .xorXyHalf _ _
  | .orMemXy _ _ | .orXyHalf _ _ | .cpMemXy _ _ | .cpXyHalf _ _ | .rlcMemXy _ _ | .rlcMemXyR _ _ _
  | .rrcMemXy _ _ | .rrcMemXyR _ _ _ | .rlMemXy _ _ | .rlMemXyR _ _ _ | .rrMemXy _ _ | .rrMemXyR _ _ _
  | .slaMemXy _ _ | .slaMemXyR _ _ _ | .sraMemXy _ _ | .sraMemXyR _ _ _ | .sllMemXy _ _ | .sllMemXyR _ _ _
  | .srlMemXy _ _ | .srlMemXyR _ _ _ => 0xFF
  | .addHlSs _ | .rlca | .rrca | .rla | .rra | .scf | .ccf | .addXyPp _ _ => 0x3B
  | .incR _ | .incMemHl | .decR _ | .decMemHl | .bitR _ _ | .bitMemHl _ | .inRC _ | .inC | .ldAI | .ldAR | .rrd
  | .rld | .cpi | .cpd | .cpir | .cpdr | .incXyHalf _ _ | .decXyHalf _ _ | .incMemXy _ _ | .decMemXy _ _
  | .bitMemXy _ _ _ _ => 0xFE
  | .daa => 0xFD
  | .cpl => 0x3A
  | .popQq qq => if qq = .af then 0xFF else 0x00
  | .ldi | .ldd | .ldir | .lddr => 0x3E

/-- The addresses an instruction stores to, from the state before it (the Operation lines of the instruction rules). -/
def storeAddrs (s : State) : Instr → List Word
  | .nop | .exAfAf | .djnz _ | .jr _ | .jrNz _ | .jrZ _ | .jrNc _ | .jrC _ | .ldDdNn _ _ | .addHlSs _ | .ldAMemBc
  | .ldAMemDe | .ldHlMemNn _ | .ldAMemNn _ | .incSs _ | .decSs _ | .incR _ | .decR _ | .ldRN _ _ | .rlca | .rrca
  | .rla | .rra | .daa | .cpl | .scf | .ccf | .ldRR _ _ | .ldRMemHl _ | .halt | .addR _ | .addMemHl | .addN _
  | .adcR _ | .adcMemHl | .adcN _ | .subR _ | .subMemHl | .subN _ | .sbcR _ | .sbcMemHl | .sbcN _ | .andR _
  | .andMemHl | .andN _ | .xorR _ | .xorMemHl | .xorN _ | .orR _ | .orMemHl | .orN _ | .cpR _ | .cpMemHl | .cpN _
  | .retCc _ | .popQq _ | .ret | .exx | .jpHl | .ldSpHl | .jpCcNn _ _ | .jpNn _ | .outNA _ | .inAN _ | .exDeHl
  | .di | .ei | .rlcR _ | .rrcR _ | .rlR _ | .rrR _ | .slaR _ | .sraR _ | .sllR _ | .srlR _ | .bitR _ _
  | .bitMemHl _ | .resR _ _ | .setR _ _ | .inRC _ | .inC | .outCR _ | .outC0 | .sbcHlSs _ | .adcHlSs _
  | .ldDdMemNn _ _ | .neg _ | .reti | .retn _ | .im0 _ _ | .im1 _ | .im2 _ | .ldIA | .ldRA | .ldAI | .ldAR
  | .nopEd7 _ | .nopEd0 _ | .nopEd8 _ | .nopEdA _ _ | .nopEdC _ | .cpi | .outi | .cpd | .outd | .cpir | .otir
  | .cpdr | .otdr | .addXyPp _ _ | .ldXyNn _ _ | .incXy _ | .incXyHalf _ _ | .decXyHalf _ _ | .ldXyHalfN _ _ _
  | .ldXyMemNn _ _ | .decXy _ | .ldRMemXy _ _ _ | .ldPP _ _ _ | .addMemXy _ _ | .addXyHalf _ _ | .adcMemXy _ _
  | .adcXyHalf _ _ | .subMemXy _ _ | .subXyHalf _ _ | .sbcMemXy _ _ | .sbcXyHalf _ _ | .andMemXy _ _
  | .andXyHalf _ _ | .xorMemXy _ _ | .xorXyHalf _ _ | .orMemXy _ _ | .orXyHalf _ _ | .cpMemXy _ _ | .cpXyHalf _ _
  | .popXy _ | .jpXy _ | .ldSpXy _ | .bitMemXy _ _ _ _ | .noni _ => []
  | .ldMemBcA => [s.bc]
  | .ldMemDeA | .ldi | .ldd | .ldir | .lddr => [s.de]
  | .ldMemNnHl nn | .ldMemNnDd _ nn | .ldMemNnXy _ nn => [nn, nn + 1]
  | .ldMemNnA nn => [nn]
  | .incMemHl | .decMemHl | .ldMemHlN _ | .ldMemHlR _ | .rlcMemHl | .rrcMemHl | .rlMemHl | .rrMemHl | .slaMemHl
  | .sraMemHl | .sllMemHl | .srlMemHl | .resMemHl _ | .setMemHl _ | .rrd | .rld | .ini | .ind | .inir | .indr
  => [s.hl]
  | .exSpHl | .exSpXy _ => [s.sp, s.sp + 1]
  | .callCcNn cc _ => if condHolds s.f cc then [s.sp - 1, s.sp - 2] else []
  | .pushQq _ | .callNn _ | .rst _ | .pushXy _ => [s.sp - 1, s.sp - 2]
  | .incMemXy xy d | .decMemXy xy d | .ldMemXyN xy d _ | .ldMemXyR xy _ d | .rlcMemXy xy d | .rlcMemXyR xy d _
  | .rrcMemXy xy d | .rrcMemXyR xy d _ | .rlMemXy xy d | .rlMemXyR xy d _ | .rrMemXy xy d | .rrMemXyR xy d _
  | .slaMemXy xy d | .slaMemXyR xy d _ | .sraMemXy xy d | .sraMemXyR xy d _ | .sllMemXy xy d | .sllMemXyR xy d _
  | .srlMemXy xy d | .srlMemXyR xy d _ | .resMemXy xy _ d | .resMemXyR xy _ d _ | .setMemXy xy _ d
  | .setMemXyR xy _ d _ => [indexAddr s xy d]

/-- Whether an instruction writes a port (49_io R457 to R463). -/
def writesPort : Instr → Bool
  | .outNA _ | .outCR _ | .outC0 | .outi | .outd | .otir | .otdr => true
  | _ => false

/-- The opcode fetches of an instruction (10_state R29, 30_encoding R111): one, or two when its first byte selects a
page and more bytes follow. -/
def opFetches (i : Instr) : Nat :=
  match encode i with
  | b0 :: _ :: _ => if b0 = 0xCB ∨ b0 = 0xED ∨ b0 = 0xDD ∨ b0 = 0xFD then 2 else 1
  | _ => 1

/-- Whether bytes begin with an instruction: its encoding and the constraints of its row of the opcode table, the one on
the byte after a NONI among them (30_encoding R124, R130). -/
def MatchesBytes (i : Instr) (bs : List Byte) : Prop :=
  i.WellFormed = true ∧ bs.take i.length = encode i ∧
    ∀ xy, i = .noni xy → ∀ b, bs[1]? = some b → idxSet.contains b = false

/-- The byte a place holds. -/
def byteAt (s : State) : Page × Nat → Byte
  | (.rom n, off) => s.rom.read (cellKey n off)
  | (.ram n, off) => s.ram.read (cellKey n off)

/-- The element `IO(w):4` of a port write: the write at its start, then its time under the page map of its start
(60_exceptions R548, 70_reset R614, log 15). -/
def wrotePort (p : Word) (v : Byte) (s : State) : State :=
  { portWrite p v s with frameT := timeAfter s.cfg s.paging s.frameT [.io p] }

end Sys2Proof.Machine
end

