-- ==== Sys2Proof/Certificates/Slice0/Obligations.lean ====
section
/-! DEFINITION. The statements for the provers. Each docstring names the rules of spec/ it formalises. An instruction's
statement gives its bytes and the next state that `exec` answers on EVERY state: `ran s n m cs` is `s` after `n` bytes,
`m` opcode fetches and the bus cycles `cs` (Safety.lean), and the fields written stand beside it. No statement on an
instruction has a hypothesis: no instruction of this machine traps or stops (60_exceptions R500, R515). -/

open Sys2Proof Sys2Proof.Machine

/-! ### Encoding -/

/-- Four bytes are matched by exactly one well-formed instruction, and it is the one the decoder answers (30_encoding
R127). -/
def Obligations.DecodeTotal : Prop :=
  ∀ b0 b1 b2 b3 : Byte, ∃ i, decode [b0, b1, b2, b3] = .ok (i, [b0, b1, b2, b3].drop i.length) ∧
    MatchesBytes i [b0, b1, b2, b3] ∧ ∀ j, MatchesBytes j [b0, b1, b2, b3] → j = i

/-- Decoding the bytes of a well-formed instruction gives it back, whatever follows; after a NONI a byte outside
`IDX_SET` must follow (30_encoding R118 to R124). -/
def Obligations.DecodeEncode : Prop :=
  ∀ (i : Instr) (rest : List Byte), i.WellFormed = true →
    (∀ xy, i = .noni xy → ∃ b bs, rest = b :: bs ∧ idxSet.contains b = false) →
    decode (encode i ++ rest) = .ok (i, rest)

/-- What the decoder answers is well-formed, and its bytes are the bytes read: no bit of an encoding is dropped. -/
def Obligations.EncodeDecode : Prop :=
  ∀ (bs : List Byte) (i : Instr) (rest : List Byte), decode bs = .ok (i, rest) →
    bs = encode i ++ rest ∧ i.WellFormed = true

/-- Words written out from the encoding lines of the rules decode to their instructions. -/
def Obligations.DecodeWords : Prop :=
  decode [0b01000001] = .ok (.ldRR .b .c, []) ∧
  decode [0b00100001, 0x34, 0x12] = .ok (.ldDdNn .hl 0x1234, []) ∧
  decode [0b11101101, 0b10110000] = .ok (.ldir, []) ∧
  decode [0b11011101, 0b10000110, 0xFF] = .ok (.addMemXy .ix 0xFF, []) ∧
  decode [0b00100111] = .ok (.daa, []) ∧
  decode [0b11101101, 0b01101010] = .ok (.adcHlSs .hl, []) ∧
  decode [0b11111101, 0b11001011, 0x05, 0b00110001] = .ok (.sllMemXyR .iy 0x05 .c, []) ∧
  decode [0b11001011, 0b01111000] = .ok (.bitR 7 .b, []) ∧
  decode [0b11001101, 0x34, 0x12] = .ok (.callNn 0x1234, []) ∧
  decode [0b11101101, 0b01111000] = .ok (.inRC .a, []) ∧
  decode [0b11011101, 0b11101101] = .ok (.noni .ix, [0b11101101])

/-- The second bytes for which a DD or FD byte changes the instruction (30_encoding R124), by their fields. -/
def Obligations.IdxSet : Prop :=
  ∀ b : Byte, idxSet.contains b = true ↔
    b ∈ [(0x09 : Byte), 0x19, 0x29, 0x39, 0x21, 0x22, 0x23, 0x24, 0x25, 0x26, 0x2A, 0x2B, 0x2C, 0x2D, 0x2E, 0x34, 0x35, 0x36]
    ∨ (0x40 ≤ b.toNat ∧ b.toNat < 0x80 ∧ b ≠ 0x76 ∧
        ((b.toNat / 8 % 8 = 4 ∨ b.toNat / 8 % 8 = 5 ∨ b.toNat / 8 % 8 = 6)
          ∨ (b.toNat % 8 = 4 ∨ b.toNat % 8 = 5 ∨ b.toNat % 8 = 6)))
    ∨ (0x80 ≤ b.toNat ∧ b.toNat < 0xC0 ∧ (b.toNat % 8 = 4 ∨ b.toNat % 8 = 5 ∨ b.toNat % 8 = 6))
    ∨ b ∈ [(0xCB : Byte), 0xE1, 0xE3, 0xE5, 0xE9, 0xF9]

/-- How many bytes an instruction has, from its first two bytes (30_encoding R128): after CB two, after ED four for the
eight word loads and stores and two otherwise, after DD or FD one, four or two to four, else one to three. -/
def Obligations.Lengths : Prop :=
  ∀ (b0 b1 b2 b3 : Byte) (i : Instr) (rest : List Byte), decode [b0, b1, b2, b3] = .ok (i, rest) →
    rest = [b0, b1, b2, b3].drop i.length ∧
    if b0 = 0xCB then i.length = 2
    else if b0 = 0xED then
      if b1 ∈ [(0x43 : Byte), 0x4B, 0x53, 0x5B, 0x63, 0x6B, 0x73, 0x7B] then i.length = 4 else i.length = 2
    else if b0 = 0xDD ∨ b0 = 0xFD then
      if idxSet.contains b1 = false then i.length = 1
      else if b1 = 0xCB then i.length = 4
      else 2 ≤ i.length ∧ i.length ≤ 4
    else 1 ≤ i.length ∧ i.length ≤ 3

/-! ### Memory -/

/-- Which byte an address names, on both models (20_memory R76, R82, R83). -/
def Obligations.MemoryMap : Prop :=
  ∀ (s : State) (a : Word),
    (s.cfg.model = .m48 →
      read8 s a = if a.toNat < 0x4000 then s.rom.read a.toNat else s.ram.read (a.toNat - 0x4000)) ∧
    (s.cfg.model = .m128 →
      read8 s a =
        if a.toNat < 0x4000 then s.rom.read ((s.paging.getLsbD 4).toNat * 0x4000 + a.toNat)
        else if a.toNat < 0x8000 then s.ram.read (5 * 0x4000 + (a.toNat - 0x4000))
        else if a.toNat < 0xC000 then s.ram.read (2 * 0x4000 + (a.toNat - 0x8000))
        else s.ram.read (s.paging.toNat % 8 * 0x4000 + (a.toNat - 0xC000)))

/-- A byte store (20_memory R77, R85): a RAM page takes the byte at every address that names it and nowhere else, a ROM
page drops it; nothing but RAM changes. -/
def Obligations.ByteStore : Prop :=
  ∀ (s : State) (a : Word) (v : Byte), s.Inv →
    (∀ n b, pageAt s a = .ram n →
      read8 (write8 a v s) b = if placeOf s b = placeOf s a then v else read8 s b) ∧
    (∀ n, pageAt s a = .rom n → write8 a v s = s) ∧
    write8 a v s = { s with ram := (write8 a v s).ram }

/-- The stack primitives (20_memory R75): a push stores the high byte at SP−1 and then the low byte at SP−2 and lowers SP
by 2, a pop reads the word at SP and raises SP by 2; a pop right after a push into two RAM bytes gives the word back. -/
def Obligations.Stack : Prop :=
  ∀ (s : State) (v : Word),
    push16 v s = ran (pushed16 v s) 0 0 (cycPush s) ∧
    pop16 s = { ran s 0 0 (cycPop s) with sp := s.sp + 2 } ∧
    read16 s s.sp = read8 s (s.sp + 1) ++ read8 s s.sp ∧
    (pop16 (push16 v s)).sp = s.sp ∧
    (s.Inv → ∀ m n, pageAt s (s.sp - 1) = .ram m → pageAt s (s.sp - 2) = .ram n →
      read16 (push16 v s) (push16 v s).sp = v)

/-! ### Flags -/

/-- The flags of addition, subtraction, comparison, increment and decrement (43_arith8 R251, R252, R254 to R256), bit by
bit; PV also as the signed result leaving −128 to 127. -/
def Obligations.ArithmeticFlags : Prop :=
  (∀ (a b : Byte) (c : Bool), let r := (add8 a b c).1; let f := (add8 a b c).2
    r.toNat = (a.toNat + b.toNat + c.toNat) % 256 ∧ flagS f = r.getLsbD 7 ∧ flagZ f = (r == 0) ∧
    flagY f = r.getLsbD 5 ∧ flagX f = r.getLsbD 3 ∧
    flagH f = decide (a.toNat % 16 + b.toNat % 16 + c.toNat > 15) ∧
    flagPV f = (a.getLsbD 7 == b.getLsbD 7 && r.getLsbD 7 != a.getLsbD 7) ∧
    flagPV f = decide (a.toInt + b.toInt + c.toNat < -128 ∨ a.toInt + b.toInt + c.toNat > 127) ∧
    flagN f = false ∧ flagC f = decide (a.toNat + b.toNat + c.toNat > 255)) ∧
  (∀ (a b : Byte) (c : Bool), let r := (sub8 a b c).1; let f := (sub8 a b c).2
    (r.toNat : Int) = ((a.toNat : Int) - b.toNat - c.toNat) % 256 ∧ flagS f = r.getLsbD 7 ∧ flagZ f = (r == 0) ∧
    flagY f = r.getLsbD 5 ∧ flagX f = r.getLsbD 3 ∧
    flagH f = decide (((a.toNat % 16 : Nat) : Int) - (b.toNat % 16 : Nat) - c.toNat < 0) ∧
    flagPV f = (a.getLsbD 7 != b.getLsbD 7 && r.getLsbD 7 != a.getLsbD 7) ∧
    flagPV f = decide (a.toInt - b.toInt - c.toNat < -128 ∨ a.toInt - b.toInt - c.toNat > 127) ∧
    flagN f = true ∧ flagC f = decide ((a.toNat : Int) - b.toNat - c.toNat < 0)) ∧
  (∀ a b : Byte, let g := (sub8 a b false).2
    cp8 a b = mkF (flagS g) (flagZ g) (b.getLsbD 5) (flagH g) (b.getLsbD 3) (flagPV g) (flagN g) (flagC g)) ∧
  (∀ v f : Byte, let r := (inc8 v f).1
    r.toNat = (v.toNat + 1) % 256 ∧
    (inc8 v f).2 = mkF (r.getLsbD 7) (r == 0) (r.getLsbD 5) (decide (r.toNat % 16 = 0)) (r.getLsbD 3) (r == 0x80)
      false (flagC f)) ∧
  (∀ v f : Byte, let r := (dec8 v f).1
    r.toNat = (v.toNat + 255) % 256 ∧
    (dec8 v f).2 = mkF (r.getLsbD 7) (r == 0) (r.getLsbD 5) (decide (r.toNat % 16 = 15)) (r.getLsbD 3) (r == 0x7F)
      true (flagC f))

/-- The flags of the logic operations and of the rotates and shifts, with the bit each of them shifts out (43_arith8
R250, R253, 46_rotate_shift R364). -/
def Obligations.LogicRotateFlags : Prop :=
  (∀ v : Byte, sz53 v = mkF (v.getLsbD 7) (v == 0) (v.getLsbD 5) false (v.getLsbD 3) false false false) ∧
  (∀ v : Byte, sz53p v =
    mkF (v.getLsbD 7) (v == 0) (v.getLsbD 5) false (v.getLsbD 3)
      (decide ((List.range 8).countP (fun k => v.getLsbD k) % 2 = 0)) false false) ∧
  (∀ a b : Byte, let r := a &&& b
    and8 a b = (r, mkF (r.getLsbD 7) (r == 0) (r.getLsbD 5) true (r.getLsbD 3) (parity r) false false)) ∧
  (∀ a b : Byte, let r := a ^^^ b
    xor8 a b = (r, mkF (r.getLsbD 7) (r == 0) (r.getLsbD 5) false (r.getLsbD 3) (parity r) false false)) ∧
  (∀ a b : Byte, let r := a ||| b
    or8 a b = (r, mkF (r.getLsbD 7) (r == 0) (r.getLsbD 5) false (r.getLsbD 3) (parity r) false false)) ∧
  (∀ (o : RotOp) (v : Byte) (c : Bool),
    let out := match o with
      | .rlc | .rl | .sla | .sll => v.getLsbD 7
      | .rrc | .rr | .sra | .srl => v.getLsbD 0
    let r : Nat := match o with
      | .rlc => v.toNat * 2 % 256 + v.toNat / 128
      | .rrc => v.toNat / 2 + v.toNat % 2 * 128
      | .rl => v.toNat * 2 % 256 + c.toNat
      | .rr => v.toNat / 2 + c.toNat * 128
      | .sla => v.toNat * 2 % 256
      | .sra => v.toNat / 2 + v.toNat / 128 * 128
      | .sll => v.toNat * 2 % 256 + 1
      | .srl => v.toNat / 2
    (o.result v c).1.toNat = r ∧
    (o.result v c).2 = sz53p (BitVec.ofNat 8 r) ||| (if out then 0x01 else 0x00))

/-- What `DAA` is for (44_general_control R320): after an addition of two bytes of decimal digits it leaves the decimal
digits of the sum, and C tells a sum above 99; after a subtraction it leaves those of the difference, and C the borrow. -/
def Obligations.DaaDecimal : Prop :=
  let bcd (n : Nat) : Byte := BitVec.ofNat 8 (n / 10 % 10 * 16 + n % 10)
  ∀ (x y : Fin 100) (c : Bool),
    (let rf := add8 (bcd x) (bcd y) c
     (daa8 rf.1 rf.2).1 = bcd ((x + y + c.toNat : Nat) % 100) ∧
     flagC (daa8 rf.1 rf.2).2 = decide ((x + y + c.toNat : Nat) > 99)) ∧
    (let rf := sub8 (bcd x) (bcd y) c
     (daa8 rf.1 rf.2).1 = bcd ((x + 200 - y - c.toNat : Nat) % 100) ∧
     flagC (daa8 rf.1 rf.2).2 = decide ((x : Nat) < y + c.toNat))

/-! ### The instructions -/

/-- The eight accumulator operations on a register and on a half of an index register: `ADD A,r` to `CP r` (43_arith8
R260, R265, ..., R295) and the XYH and XYL forms. -/
def Obligations.AluRegister : Prop :=
  (∀ (k : AluOp) (r : R8) (s : State), encode (k.onReg r) = [0b10#2 ++ k.code ++ r.code] ∧
    exec (k.onReg r) s = .next
      { ran s 1 1 (cyc1 s) with
        a := (k.result s.a (getR8 s r) (flagC s.f)).1, f := (k.result s.a (getR8 s r) (flagC s.f)).2 }) ∧
  (∀ (k : AluOp) (xy : XY) (j : Half) (s : State),
    encode (k.onHalf xy j) = [0b11#2 ++ xy.code ++ 0b11101#5, 0b10#2 ++ k.code ++ 0b10#2 ++ j.code] ∧
    exec (k.onHalf xy j) s = .next
      { ran s 2 2 (cyc2 s) with
        a := (k.result s.a (getHalf s xy j) (flagC s.f)).1, f := (k.result s.a (getHalf s xy j) (flagC s.f)).2 })

/-- The eight accumulator operations on an immediate byte (43_arith8 R261, R266, ..., R296). -/
def Obligations.AluImmediate : Prop :=
  ∀ (k : AluOp) (n : Byte) (s : State), encode (k.onImm n) = [0b11#2 ++ k.code ++ 0b110#3, n] ∧
    exec (k.onImm n) s = .next
      { ran s 2 1 [.mem s.pc 4, .mem (s.pc + 1) 3] with
        a := (k.result s.a n (flagC s.f)).1, f := (k.result s.a n (flagC s.f)).2 }

/-- The eight accumulator operations on the byte at HL and on an indexed byte (43_arith8 R262, R263, R267, ..., R298); an
indexed form leaves its address in MEMPTR. -/
def Obligations.AluMemory : Prop :=
  (∀ (k : AluOp) (s : State), encode k.onMemHl = [0b10#2 ++ k.code ++ 0b110#3] ∧
    exec k.onMemHl s = .next
      { ran s 1 1 (cyc1 s ++ [.mem s.hl 3]) with
        a := (k.result s.a (read8 s s.hl) (flagC s.f)).1, f := (k.result s.a (read8 s s.hl) (flagC s.f)).2 }) ∧
  (∀ (k : AluOp) (xy : XY) (d : Byte) (s : State), let w := getXy s xy + d.signExtend 16
    encode (k.onMemXy xy d) = [0b11#2 ++ xy.code ++ 0b11101#5, 0b10#2 ++ k.code ++ 0b110#3, d] ∧
    exec (k.onMemXy xy d) s = .next
      { ran s 3 2 (cycXy s ++ [.mem w 3]) with
        a := (k.result s.a (read8 s w) (flagC s.f)).1, f := (k.result s.a (read8 s w) (flagC s.f)).2, memptr := w })

/-- INC and DEC of a register, the byte at HL, an indexed byte and a half of an index register (43_arith8 R300 to
R307). -/
def Obligations.IncDec8 : Prop :=
  (∀ (r : R8) (s : State),
    exec (.incR r) s = .next (setR8 r (inc8 (getR8 s r) s.f).1
      { ran s 1 1 (cyc1 s) with f := (inc8 (getR8 s r) s.f).2 }) ∧
    exec (.decR r) s = .next (setR8 r (dec8 (getR8 s r) s.f).1
      { ran s 1 1 (cyc1 s) with f := (dec8 (getR8 s r) s.f).2 })) ∧
  (∀ s : State, let v := read8 s s.hl
    exec .incMemHl s = .next
      { ran (write8 s.hl (inc8 v s.f).1 s) 1 1 (cyc1 s ++ cycRmw s.hl) with f := (inc8 v s.f).2 } ∧
    exec .decMemHl s = .next
      { ran (write8 s.hl (dec8 v s.f).1 s) 1 1 (cyc1 s ++ cycRmw s.hl) with f := (dec8 v s.f).2 }) ∧
  (∀ (xy : XY) (d : Byte) (s : State), let w := getXy s xy + d.signExtend 16; let v := read8 s w
    exec (.incMemXy xy d) s = .next
      { ran (write8 w (inc8 v s.f).1 s) 3 2 (cycXy s ++ cycRmw w) with f := (inc8 v s.f).2, memptr := w } ∧
    exec (.decMemXy xy d) s = .next
      { ran (write8 w (dec8 v s.f).1 s) 3 2 (cycXy s ++ cycRmw w) with f := (dec8 v s.f).2, memptr := w }) ∧
  (∀ (xy : XY) (s : State), let h := hiByte (getXy s xy); let l := loByte (getXy s xy)
    exec (.incXyHalf xy .hi) s = .next
      (setXy xy ((inc8 h s.f).1 ++ l) { ran s 2 2 (cyc2 s) with f := (inc8 h s.f).2 }) ∧
    exec (.incXyHalf xy .lo) s = .next
      (setXy xy (h ++ (inc8 l s.f).1) { ran s 2 2 (cyc2 s) with f := (inc8 l s.f).2 }) ∧
    exec (.decXyHalf xy .hi) s = .next
      (setXy xy ((dec8 h s.f).1 ++ l) { ran s 2 2 (cyc2 s) with f := (dec8 h s.f).2 }) ∧
    exec (.decXyHalf xy .lo) s = .next
      (setXy xy (h ++ (dec8 l s.f).1) { ran s 2 2 (cyc2 s) with f := (dec8 l s.f).2 })) ∧
  (∀ (r : R8) (xy : XY) (j : Half) (d : Byte),
    encode (.incR r) = [0b00#2 ++ r.code ++ 0b100#3] ∧ encode (.decR r) = [0b00#2 ++ r.code ++ 0b101#3] ∧
    encode .incMemHl = [0x34] ∧ encode .decMemHl = [0x35] ∧
    encode (.incMemXy xy d) = [0b11#2 ++ xy.code ++ 0b11101#5, 0x34, d] ∧
    encode (.decMemXy xy d) = [0b11#2 ++ xy.code ++ 0b11101#5, 0x35, d] ∧
    encode (.incXyHalf xy j) = [0b11#2 ++ xy.code ++ 0b11101#5, 0b0010#4 ++ j.code ++ 0b100#3] ∧
    encode (.decXyHalf xy j) = [0b11#2 ++ xy.code ++ 0b11101#5, 0b0010#4 ++ j.code ++ 0b101#3])

/-- The 8-bit loads between registers, immediates, the byte at HL and indexed bytes (40_load8 R150 to R157, R168,
R169). -/
def Obligations.Load8 : Prop :=
  (∀ (r r' : R8) (s : State), encode (.ldRR r r') = [0b01#2 ++ r.code ++ r'.code] ∧
    exec (.ldRR r r') s = .next (setR8 r (getR8 s r') (ran s 1 1 (cyc1 s)))) ∧
  (∀ (r : R8) (n : Byte) (s : State), encode (.ldRN r n) = [0b00#2 ++ r.code ++ 0b110#3, n] ∧
    exec (.ldRN r n) s = .next (setR8 r n (ran s 2 1 [.mem s.pc 4, .mem (s.pc + 1) 3]))) ∧
  (∀ (r : R8) (s : State), encode (.ldRMemHl r) = [0b01#2 ++ r.code ++ 0b110#3] ∧
    exec (.ldRMemHl r) s = .next (setR8 r (read8 s s.hl) (ran s 1 1 (cyc1 s ++ [.mem s.hl 3])))) ∧
  (∀ (xy : XY) (r : R8) (d : Byte) (s : State), let w := getXy s xy + d.signExtend 16
    encode (.ldRMemXy xy r d) = [0b11#2 ++ xy.code ++ 0b11101#5, 0b01#2 ++ r.code ++ 0b110#3, d] ∧
    exec (.ldRMemXy xy r d) s = .next
      (setR8 r (read8 s w) { ran s 3 2 (cycXy s ++ [.mem w 3]) with memptr := w })) ∧
  (∀ (r : R8) (s : State), encode (.ldMemHlR r) = [0b01110#5 ++ r.code] ∧
    exec (.ldMemHlR r) s = .next (ran (write8 s.hl (getR8 s r) s) 1 1 (cyc1 s ++ [.mem s.hl 3]))) ∧
  (∀ (xy : XY) (r : R8) (d : Byte) (s : State), let w := getXy s xy + d.signExtend 16
    encode (.ldMemXyR xy r d) = [0b11#2 ++ xy.code ++ 0b11101#5, 0b01110#5 ++ r.code, d] ∧
    exec (.ldMemXyR xy r d) s = .next
      { ran (write8 w (getR8 s r) s) 3 2 (cycXy s ++ [.mem w 3]) with memptr := w }) ∧
  (∀ (n : Byte) (s : State), encode (.ldMemHlN n) = [0x36, n] ∧
    exec (.ldMemHlN n) s = .next
      (ran (write8 s.hl n s) 2 1 [.mem s.pc 4, .mem (s.pc + 1) 3, .mem s.hl 3])) ∧
  (∀ (xy : XY) (d n : Byte) (s : State), let w := getXy s xy + d.signExtend 16
    encode (.ldMemXyN xy d n) = [0b11#2 ++ xy.code ++ 0b11101#5, 0x36, d, n] ∧
    exec (.ldMemXyN xy d n) s = .next
      { ran (write8 w n s) 4 2 (cycXy4 s ++ [.mem w 3]) with memptr := w }) ∧
  (∀ (xy : XY) (p p' : P8) (s : State),
    encode (.ldPP xy p p') = [0b11#2 ++ xy.code ++ 0b11101#5, 0b01#2 ++ p.code ++ p'.code] ∧
    exec (.ldPP xy p p') s = .next (setP8 xy p (getP8 s xy p') (ran s 2 2 (cyc2 s)))) ∧
  (∀ (xy : XY) (j : Half) (n : Byte) (s : State),
    encode (.ldXyHalfN xy j n) = [0b11#2 ++ xy.code ++ 0b11101#5, 0b0010#4 ++ j.code ++ 0b110#3, n] ∧
    exec (.ldXyHalfN xy j n) s = .next
      (setXy xy (match j with | .hi => n ++ loByte (getXy s xy) | .lo => hiByte (getXy s xy) ++ n)
        (ran s 3 2 [.mem s.pc 4, .mem (s.pc + 1) 4, .mem (s.pc + 2) 3])))

/-- The loads and stores of A through BC, DE and an address, and the loads of I and R (40_load8 R158 to R167): the MEMPTR
of a store is A and the low byte of the address + 1; `LD A,I` and `LD A,R` put IFF2 in PV; `LD R,A` writes all of R. -/
def Obligations.LoadA : Prop :=
  (∀ s : State,
    encode .ldAMemBc = [0x0A] ∧
    exec .ldAMemBc s = .next
      { ran s 1 1 (cyc1 s ++ [.mem s.bc 3]) with a := read8 s s.bc, memptr := s.bc + 1 } ∧
    encode .ldAMemDe = [0x1A] ∧
    exec .ldAMemDe s = .next
      { ran s 1 1 (cyc1 s ++ [.mem s.de 3]) with a := read8 s s.de, memptr := s.de + 1 } ∧
    encode .ldMemBcA = [0x02] ∧
    exec .ldMemBcA s = .next
      { ran (write8 s.bc s.a s) 1 1 (cyc1 s ++ [.mem s.bc 3]) with memptr := s.a ++ (s.c + 1) } ∧
    encode .ldMemDeA = [0x12] ∧
    exec .ldMemDeA s = .next
      { ran (write8 s.de s.a s) 1 1 (cyc1 s ++ [.mem s.de 3]) with memptr := s.a ++ (s.e + 1) }) ∧
  (∀ (nn : Word) (s : State),
    encode (.ldAMemNn nn) = [0x3A, nn.extractLsb' 0 8, nn.extractLsb' 8 8] ∧
    exec (.ldAMemNn nn) s = .next
      { ran s 3 1 (cycNn1 s ++ [.mem nn 3]) with a := read8 s nn, memptr := nn + 1 } ∧
    encode (.ldMemNnA nn) = [0x32, nn.extractLsb' 0 8, nn.extractLsb' 8 8] ∧
    exec (.ldMemNnA nn) s = .next
      { ran (write8 nn s.a s) 3 1 (cycNn1 s ++ [.mem nn 3]) with memptr := s.a ++ (nn.extractLsb' 0 8 + 1) }) ∧
  (∀ s : State, let t := ran s 2 2 (cyc2 s ++ [.idle (irAfter s 2) 1]); let r := refreshed s.r 2
    encode .ldAI = [0xED, 0x57] ∧
    exec .ldAI s = .next { t with
      a := s.i
      f := mkF (s.i.getLsbD 7) (s.i == 0) (s.i.getLsbD 5) false (s.i.getLsbD 3) s.iff2 false (flagC s.f) } ∧
    encode .ldAR = [0xED, 0x5F] ∧
    exec .ldAR s = .next { t with
      a := r, f := mkF (r.getLsbD 7) (r == 0) (r.getLsbD 5) false (r.getLsbD 3) s.iff2 false (flagC s.f) } ∧
    encode .ldIA = [0xED, 0x47] ∧ exec .ldIA s = .next { t with i := s.a } ∧
    encode .ldRA = [0xED, 0x4F] ∧ exec .ldRA s = .next { t with r := s.a })

/-- The 16-bit loads (41_load16 R190 to R199). -/
def Obligations.Load16 : Prop :=
  (∀ (dd : DD) (nn : Word) (s : State), let lo := nn.extractLsb' 0 8; let hi := nn.extractLsb' 8 8
    encode (.ldDdNn dd nn) = [0b00#2 ++ dd.code ++ 0b0001#4, lo, hi] ∧
    exec (.ldDdNn dd nn) s = .next (setDd dd nn (ran s 3 1 (cycNn1 s))) ∧
    encode (.ldHlMemNn nn) = [0x2A, lo, hi] ∧
    exec (.ldHlMemNn nn) s = .next
      { ran s 3 1 (cycNn1 s ++ [.mem nn 3, .mem (nn + 1) 3]) with
        h := read8 s (nn + 1), l := read8 s nn, memptr := nn + 1 } ∧
    encode (.ldDdMemNn dd nn) = [0xED, 0b01#2 ++ dd.code ++ 0b1011#4, lo, hi] ∧
    exec (.ldDdMemNn dd nn) s = .next (setDd dd (read8 s (nn + 1) ++ read8 s nn)
      { ran s 4 2 (cycNn2 s ++ [.mem nn 3, .mem (nn + 1) 3]) with memptr := nn + 1 }) ∧
    encode (.ldMemNnHl nn) = [0x22, lo, hi] ∧
    exec (.ldMemNnHl nn) s = .next
      { ran (write8 (nn + 1) s.h (write8 nn s.l s)) 3 1 (cycNn1 s ++ [.mem nn 3, .mem (nn + 1) 3]) with
        memptr := nn + 1 } ∧
    encode (.ldMemNnDd dd nn) = [0xED, 0b01#2 ++ dd.code ++ 0b0011#4, lo, hi] ∧
    exec (.ldMemNnDd dd nn) s = .next
      { ran (written16 nn (getDd s dd) s) 4 2 (cycNn2 s ++ [.mem nn 3, .mem (nn + 1) 3]) with memptr := nn + 1 }) ∧
  (∀ (xy : XY) (nn : Word) (s : State), let lo := nn.extractLsb' 0 8; let hi := nn.extractLsb' 8 8
    encode (.ldXyNn xy nn) = [0b11#2 ++ xy.code ++ 0b11101#5, 0x21, lo, hi] ∧
    exec (.ldXyNn xy nn) s = .next (setXy xy nn (ran s 4 2 (cycNn2 s))) ∧
    encode (.ldXyMemNn xy nn) = [0b11#2 ++ xy.code ++ 0b11101#5, 0x2A, lo, hi] ∧
    exec (.ldXyMemNn xy nn) s = .next (setXy xy (read8 s (nn + 1) ++ read8 s nn)
      { ran s 4 2 (cycNn2 s ++ [.mem nn 3, .mem (nn + 1) 3]) with memptr := nn + 1 }) ∧
    encode (.ldMemNnXy xy nn) = [0b11#2 ++ xy.code ++ 0b11101#5, 0x22, lo, hi] ∧
    exec (.ldMemNnXy xy nn) s = .next
      { ran (written16 nn (getXy s xy) s) 4 2 (cycNn2 s ++ [.mem nn 3, .mem (nn + 1) 3]) with memptr := nn + 1 } ∧
    encode (.ldSpXy xy) = [0b11#2 ++ xy.code ++ 0b11101#5, 0xF9] ∧
    exec (.ldSpXy xy) s = .next
      { ran s 2 2 (cyc2 s ++ [.idle (irAfter s 2) 2]) with sp := getXy s xy } ∧
    encode .ldSpHl = [0xF9] ∧
    exec .ldSpHl s = .next { ran s 1 1 (cyc1 s ++ [.idle (irAfter s 1) 2]) with sp := s.hl })

/-- PUSH and POP (41_load16 R200 to R203) and the exchanges (42_exchange_block R220 to R224): POP AF loads all of F; EX
with the top of the stack writes the high byte first and leaves the word read in MEMPTR. -/
def Obligations.StackExchange : Prop :=
  (∀ (qq : QQ) (s : State), encode (.pushQq qq) = [0b11#2 ++ qq.code ++ 0b0101#4] ∧
    exec (.pushQq qq) s = .next
      (ran (pushed16 (getQq s qq) s) 1 1 (cyc1 s ++ [.idle (irAfter s 1) 1] ++ cycPush s)) ∧
    encode (.popQq qq) = [0b11#2 ++ qq.code ++ 0b0001#4] ∧
    exec (.popQq qq) s = .next (setQq qq (read8 s (s.sp + 1) ++ read8 s s.sp)
      { ran s 1 1 (cyc1 s ++ cycPop s) with sp := s.sp + 2 })) ∧
  (∀ (xy : XY) (s : State), encode (.pushXy xy) = [0b11#2 ++ xy.code ++ 0b11101#5, 0xE5] ∧
    exec (.pushXy xy) s = .next
      (ran (pushed16 (getXy s xy) s) 2 2 (cyc2 s ++ [.idle (irAfter s 2) 1] ++ cycPush s)) ∧
    encode (.popXy xy) = [0b11#2 ++ xy.code ++ 0b11101#5, 0xE1] ∧
    exec (.popXy xy) s = .next (setXy xy (read8 s (s.sp + 1) ++ read8 s s.sp)
      { ran s 2 2 (cyc2 s ++ cycPop s) with sp := s.sp + 2 })) ∧
  (∀ s : State,
    encode .exDeHl = [0xEB] ∧
    exec .exDeHl s = .next { ran s 1 1 (cyc1 s) with d := s.h, e := s.l, h := s.d, l := s.e } ∧
    encode .exAfAf = [0x08] ∧
    exec .exAfAf s = .next { ran s 1 1 (cyc1 s) with a := s.a', f := s.f', a' := s.a, f' := s.f } ∧
    encode .exx = [0xD9] ∧
    exec .exx s = .next { ran s 1 1 (cyc1 s) with
      b := s.b', c := s.c', d := s.d', e := s.e', h := s.h', l := s.l'
      b' := s.b, c' := s.c, d' := s.d, e' := s.e, h' := s.h, l' := s.l }) ∧
  (∀ (xy : XY) (s : State), let w := read8 s (s.sp + 1) ++ read8 s s.sp
    let cs := [.mem s.sp 3, .mem (s.sp + 1) 3, .idle (s.sp + 1) 1, .mem (s.sp + 1) 3, .mem s.sp 3, .idle s.sp 2]
    encode .exSpHl = [0xE3] ∧
    exec .exSpHl s = .next
      { ran (write8 s.sp s.l (write8 (s.sp + 1) s.h s)) 1 1 (cyc1 s ++ cs) with
        h := read8 s (s.sp + 1), l := read8 s s.sp, memptr := w } ∧
    encode (.exSpXy xy) = [0b11#2 ++ xy.code ++ 0b11101#5, 0xE3] ∧
    exec (.exSpXy xy) s = .next (setXy xy w
      { ran (write8 s.sp (loByte (getXy s xy)) (write8 (s.sp + 1) (hiByte (getXy s xy)) s)) 2 2 (cyc2 s ++ cs) with
        memptr := w }))

/-- The block transfers and searches (42_exchange_block R225 to R232), one iteration per step (R233): a repeating form
puts PC back to its first byte while BC is not 0 (and, for a search, the bytes differ), five T-states later. -/
def Obligations.BlockTransferSearch : Prop :=
  (∀ s : State, let v := read8 s s.hl; let n := v + s.a; let bc := s.bc - 1
    let moved (delta : Word) (cs : List Cycle) : State :=
      { ran (write8 s.de v s) 2 2 (cyc2 s ++ [.mem s.hl 3, .mem s.de 3, .idle s.de 2] ++ cs) with
        b := hiByte bc, c := loByte bc, d := hiByte (s.de + delta), e := loByte (s.de + delta)
        h := hiByte (s.hl + delta), l := loByte (s.hl + delta)
        f := mkF (flagS s.f) (flagZ s.f) (n.getLsbD 1) false (n.getLsbD 3) (bc != 0) false (flagC s.f) }
    let again (delta : Word) : State := { moved delta [.idle s.de 5] with pc := s.pc, memptr := s.pc + 1 }
    encode .ldi = [0xED, 0xA0] ∧ exec .ldi s = .next (moved 1 []) ∧
    encode .ldd = [0xED, 0xA8] ∧ exec .ldd s = .next (moved (-1) []) ∧
    encode .ldir = [0xED, 0xB0] ∧ exec .ldir s = .next (if bc ≠ 0 then again 1 else moved 1 []) ∧
    encode .lddr = [0xED, 0xB8] ∧ exec .lddr s = .next (if bc ≠ 0 then again (-1) else moved (-1) [])) ∧
  (∀ s : State, let v := read8 s s.hl; let r := s.a - v; let bc := s.bc - 1
    let half := decide (s.a.toNat % 16 < v.toNat % 16); let n := r - (if half then 1 else 0)
    let looked (delta : Word) (cs : List Cycle) : State :=
      { ran s 2 2 (cyc2 s ++ [.mem s.hl 3, .idle s.hl 5] ++ cs) with
        b := hiByte bc, c := loByte bc, h := hiByte (s.hl + delta), l := loByte (s.hl + delta)
        f := mkF (r.getLsbD 7) (r == 0) (n.getLsbD 1) half (n.getLsbD 3) (bc != 0) true (flagC s.f)
        memptr := s.memptr + delta }
    let again (delta : Word) : State := { looked delta [.idle s.hl 5] with pc := s.pc, memptr := s.pc + 1 }
    encode .cpi = [0xED, 0xA1] ∧ exec .cpi s = .next (looked 1 []) ∧
    encode .cpd = [0xED, 0xA9] ∧ exec .cpd s = .next (looked (-1) []) ∧
    encode .cpir = [0xED, 0xB1] ∧ exec .cpir s = .next (if bc ≠ 0 ∧ r ≠ 0 then again 1 else looked 1 []) ∧
    encode .cpdr = [0xED, 0xB9] ∧ exec .cpdr s = .next (if bc ≠ 0 ∧ r ≠ 0 then again (-1) else looked (-1) []))

/-- DAA, CPL, NEG, CCF, SCF (44_general_control R320 to R324), the rotates of the accumulator (46_rotate_shift R360 to
R363) and the digit rotates RLD and RRD (R397, R398). -/
def Obligations.Accumulator : Prop :=
  (∀ (u : BitVec 3) (s : State),
    encode .daa = [0x27] ∧
    (let adj := (if flagH s.f || decide (s.a.toNat % 16 > 9) then 0x06 else 0x00)
        + (if flagC s.f || decide (s.a.toNat > 0x99) then 0x60 else 0x00)
     let rf := if flagN s.f then sub8 s.a adj false else add8 s.a adj false
     exec .daa s = .next { ran s 1 1 (cyc1 s) with
       a := rf.1
       f := mkF (rf.1.getLsbD 7) (rf.1 == 0) (rf.1.getLsbD 5) (flagH rf.2) (rf.1.getLsbD 3) (parity rf.1) (flagN s.f)
         (flagC s.f || decide (s.a.toNat > 0x99)) }) ∧
    encode .cpl = [0x2F] ∧
    exec .cpl s = .next { ran s 1 1 (cyc1 s) with
      a := s.a ^^^ 0xFF
      f := mkF (flagS s.f) (flagZ s.f) ((s.a ^^^ 0xFF).getLsbD 5) true ((s.a ^^^ 0xFF).getLsbD 3) (flagPV s.f) true
        (flagC s.f) } ∧
    encode (.neg u) = [0xED, 0b01#2 ++ u ++ 0b100#3] ∧
    exec (.neg u) s = .next { ran s 2 2 (cyc2 s) with a := (sub8 0 s.a false).1, f := (sub8 0 s.a false).2 } ∧
    encode .ccf = [0x3F] ∧
    exec .ccf s = .next { ran s 1 1 (cyc1 s) with
      f := mkF (flagS s.f) (flagZ s.f) (s.a.getLsbD 5) (flagC s.f) (s.a.getLsbD 3) (flagPV s.f) false (!flagC s.f) } ∧
    encode .scf = [0x37] ∧
    exec .scf s = .next { ran s 1 1 (cyc1 s) with
      f := mkF (flagS s.f) (flagZ s.f) (s.a.getLsbD 5) false (s.a.getLsbD 3) (flagPV s.f) false true }) ∧
  (∀ s : State,
    let turned (a : Byte) (c : Bool) : State := { ran s 1 1 (cyc1 s) with
      a := a, f := mkF (flagS s.f) (flagZ s.f) (a.getLsbD 5) false (a.getLsbD 3) (flagPV s.f) false c }
    encode .rlca = [0x07] ∧ exec .rlca s = .next (turned (s.a <<< 1 ||| s.a >>> 7) (s.a.getLsbD 7)) ∧
    encode .rla = [0x17] ∧
    exec .rla s = .next (turned (s.a <<< 1 ||| (if flagC s.f then 1 else 0)) (s.a.getLsbD 7)) ∧
    encode .rrca = [0x0F] ∧ exec .rrca s = .next (turned (s.a >>> 1 ||| s.a <<< 7) (s.a.getLsbD 0)) ∧
    encode .rra = [0x1F] ∧
    exec .rra s = .next (turned (s.a >>> 1 ||| (if flagC s.f then 0x80 else 0)) (s.a.getLsbD 0))) ∧
  (∀ s : State, let m := read8 s s.hl
    let digits (m' a' : Byte) : State :=
      { ran (write8 s.hl m' s) 2 2 (cyc2 s ++ [.mem s.hl 3, .idle s.hl 4, .mem s.hl 3]) with
        a := a'
        f := mkF (a'.getLsbD 7) (a' == 0) (a'.getLsbD 5) false (a'.getLsbD 3) (parity a') false (flagC s.f)
        memptr := s.hl + 1 }
    encode .rld = [0xED, 0x6F] ∧
    exec .rld s = .next (digits (m <<< 4 ||| (s.a &&& 0x0F)) ((s.a &&& 0xF0) ||| m >>> 4)) ∧
    encode .rrd = [0xED, 0x67] ∧
    exec .rrd s = .next (digits (s.a <<< 4 ||| m >>> 4) ((s.a &&& 0xF0) ||| (m &&& 0x0F))))

/-- NOP and the ED no-operations, HALT, DI, EI, the interrupt modes, and a DD or FD byte alone (44_general_control R325
to R333): EI and NONI hold interrupts off for one step; every duplicate encoding does the same. -/
def Obligations.Control : Prop :=
  (∀ s : State,
    encode .nop = [0x00] ∧ exec .nop s = .next (ran s 1 1 (cyc1 s)) ∧
    encode .halt = [0x76] ∧ exec .halt s = .next { ran s 1 1 (cyc1 s) with halted := true } ∧
    encode .di = [0xF3] ∧ exec .di s = .next { ran s 1 1 (cyc1 s) with iff1 := false, iff2 := false } ∧
    encode .ei = [0xFB] ∧
    exec .ei s = .next { ran s 1 1 (cyc1 s) with iff1 := true, iff2 := true, inhibit := true }) ∧
  (∀ (u v : BitVec 1) (x : BitVec 6) (y : BitVec 5) (z z' : BitVec 2) (s : State),
    encode (.im0 u v) = [0xED, 0b01#2 ++ u ++ 0b0#1 ++ v ++ 0b110#3] ∧
    exec (.im0 u v) s = .next { ran s 2 2 (cyc2 s) with im := .im0 } ∧
    encode (.im1 u) = [0xED, 0b01#2 ++ u ++ 0b10110#5] ∧
    exec (.im1 u) s = .next { ran s 2 2 (cyc2 s) with im := .im1 } ∧
    encode (.im2 u) = [0xED, 0b01#2 ++ u ++ 0b11110#5] ∧
    exec (.im2 u) s = .next { ran s 2 2 (cyc2 s) with im := .im2 } ∧
    encode (.nopEd7 u) = [0xED, 0b0111#4 ++ u ++ 0b111#3] ∧ exec (.nopEd7 u) s = .next (ran s 2 2 (cyc2 s)) ∧
    encode (.nopEd0 x) = [0xED, 0b00#2 ++ x] ∧ exec (.nopEd0 x) s = .next (ran s 2 2 (cyc2 s)) ∧
    encode (.nopEd8 y) = [0xED, 0b100#3 ++ y] ∧ exec (.nopEd8 y) s = .next (ran s 2 2 (cyc2 s)) ∧
    encode (.nopEdA z z') = [0xED, 0b101#3 ++ z ++ 0b1#1 ++ z'] ∧
    exec (.nopEdA z z') s = .next (ran s 2 2 (cyc2 s)) ∧
    encode (.nopEdC x) = [0xED, 0b11#2 ++ x] ∧ exec (.nopEdC x) s = .next (ran s 2 2 (cyc2 s))) ∧
  (∀ (xy : XY) (s : State), encode (.noni xy) = [0b11#2 ++ xy.code ++ 0b11101#5] ∧
    exec (.noni xy) s = .next { ran s 1 1 (cyc1 s) with inhibit := true })

/-- The 16-bit arithmetic (45_arith16 R340 to R347): ADD keeps S, Z and PV, ADC and SBC write every flag, INC and DEC
none; H is the carry or borrow at bit 11, PV the signed overflow. -/
def Obligations.Arith16 : Prop :=
  let addF (a b : Word) (f : Byte) : Byte := let r := a + b
    mkF (flagS f) (flagZ f) (r.getLsbD 13) (decide (a.toNat % 4096 + b.toNat % 4096 > 4095)) (r.getLsbD 11) (flagPV f)
      false (decide (a.toNat + b.toNat > 65535))
  (∀ (ss : DD) (s : State), let a := s.hl; let b := getDd s ss; let c := if flagC s.f then 1 else 0
    let r := a + b; let r' := a + b + BitVec.ofNat 16 c; let r'' := a - b - BitVec.ofNat 16 c
    encode (.addHlSs ss) = [0b00#2 ++ ss.code ++ 0b1001#4] ∧
    exec (.addHlSs ss) s = .next
      { ran s 1 1 (cyc1 s ++ [.idle (irAfter s 1) 7]) with
        h := hiByte r, l := loByte r, memptr := a + 1, f := addF a b s.f } ∧
    encode (.adcHlSs ss) = [0xED, 0b01#2 ++ ss.code ++ 0b1010#4] ∧
    exec (.adcHlSs ss) s = .next
      { ran s 2 2 (cyc2 s ++ [.idle (irAfter s 2) 7]) with
        h := hiByte r', l := loByte r', memptr := a + 1
        f := mkF (r'.getLsbD 15) (r' == 0) (r'.getLsbD 13) (decide (a.toNat % 4096 + b.toNat % 4096 + c > 4095))
          (r'.getLsbD 11) (decide (a.toInt + b.toInt + c < -32768 ∨ a.toInt + b.toInt + c > 32767)) false
          (decide (a.toNat + b.toNat + c > 65535)) } ∧
    encode (.sbcHlSs ss) = [0xED, 0b01#2 ++ ss.code ++ 0b0010#4] ∧
    exec (.sbcHlSs ss) s = .next
      { ran s 2 2 (cyc2 s ++ [.idle (irAfter s 2) 7]) with
        h := hiByte r'', l := loByte r'', memptr := a + 1
        f := mkF (r''.getLsbD 15) (r'' == 0) (r''.getLsbD 13) (decide (a.toNat % 4096 < b.toNat % 4096 + c))
          (r''.getLsbD 11) (decide (a.toInt - b.toInt - c < -32768 ∨ a.toInt - b.toInt - c > 32767)) true
          (decide (a.toNat < b.toNat + c)) } ∧
    encode (.incSs ss) = [0b00#2 ++ ss.code ++ 0b0011#4] ∧
    exec (.incSs ss) s = .next (setDd ss (getDd s ss + 1) (ran s 1 1 (cyc1 s ++ [.idle (irAfter s 1) 2]))) ∧
    encode (.decSs ss) = [0b00#2 ++ ss.code ++ 0b1011#4] ∧
    exec (.decSs ss) s = .next (setDd ss (getDd s ss - 1) (ran s 1 1 (cyc1 s ++ [.idle (irAfter s 1) 2])))) ∧
  (∀ (xy : XY) (pp : PP) (s : State), let a := getXy s xy; let b := getPp s xy pp
    encode (.addXyPp xy pp) = [0b11#2 ++ xy.code ++ 0b11101#5, 0b00#2 ++ pp.code ++ 0b1001#4] ∧
    exec (.addXyPp xy pp) s = .next (setXy xy (a + b)
      { ran s 2 2 (cyc2 s ++ [.idle (irAfter s 2) 7]) with memptr := a + 1, f := addF a b s.f }) ∧
    encode (.incXy xy) = [0b11#2 ++ xy.code ++ 0b11101#5, 0x23] ∧
    exec (.incXy xy) s = .next (setXy xy (a + 1) (ran s 2 2 (cyc2 s ++ [.idle (irAfter s 2) 2]))) ∧
    encode (.decXy xy) = [0b11#2 ++ xy.code ++ 0b11101#5, 0x2B] ∧
    exec (.decXy xy) s = .next (setXy xy (a - 1) (ran s 2 2 (cyc2 s ++ [.idle (irAfter s 2) 2]))))

/-- The eight rotates and shifts on a register (46_rotate_shift R365, R369, ..., R393). -/
def Obligations.RotateRegister : Prop :=
  ∀ (k : RotOp) (r : R8) (s : State), encode (k.onReg r) = [0xCB, 0b00#2 ++ k.code ++ r.code] ∧
    exec (k.onReg r) s = .next (setR8 r (k.result (getR8 s r) (flagC s.f)).1
      { ran s 2 2 (cyc2 s) with f := (k.result (getR8 s r) (flagC s.f)).2 })

/-- The eight rotates and shifts on the byte at HL (46_rotate_shift R366, R370, ..., R394). -/
def Obligations.RotateMemory : Prop :=
  ∀ (k : RotOp) (s : State), let rf := k.result (read8 s s.hl) (flagC s.f)
    encode k.onMemHl = [0xCB, 0b00#2 ++ k.code ++ 0b110#3] ∧
    exec k.onMemHl s = .next { ran (write8 s.hl rf.1 s) 2 2 (cyc2 s ++ cycRmw s.hl) with f := rf.2 }

/-- The eight rotates and shifts on an indexed byte (46_rotate_shift R367, R371, ..., R395). -/
def Obligations.RotateIndexed : Prop :=
  ∀ (k : RotOp) (xy : XY) (d : Byte) (s : State), let w := getXy s xy + d.signExtend 16
    let rf := k.result (read8 s w) (flagC s.f)
    encode (k.onMemXy xy d) = [0b11#2 ++ xy.code ++ 0b11101#5, 0xCB, d, 0b00#2 ++ k.code ++ 0b110#3] ∧
    exec (k.onMemXy xy d) s = .next
      { ran (write8 w rf.1 s) 4 2 (cycXy4 s ++ cycRmw w) with f := rf.2, memptr := w }

/-- The eight rotates and shifts on an indexed byte with a register copy (46_rotate_shift R368, R372, ..., R396): the
register takes the result whether or not memory took it. -/
def Obligations.RotateIndexedCopy : Prop :=
  ∀ (k : RotOp) (xy : XY) (d : Byte) (r : R8) (s : State), let w := getXy s xy + d.signExtend 16
    let rf := k.result (read8 s w) (flagC s.f)
    encode (k.onMemXyR xy d r) = [0b11#2 ++ xy.code ++ 0b11101#5, 0xCB, d, 0b00#2 ++ k.code ++ r.code] ∧
    exec (k.onMemXyR xy d r) s = .next (setR8 r rf.1
      { ran (write8 w rf.1 s) 4 2 (cycXy4 s ++ cycRmw w) with f := rf.2, memptr := w })

/-- BIT, SET and RES (47_bit R400 to R410): BIT takes Y and X from the register tested, from the high byte of MEMPTR for
(HL), from the high byte of the address for an indexed byte; the low bits of an indexed BIT's last byte do nothing. -/
def Obligations.BitSetReset : Prop :=
  let tested (f v : Byte) (k : BitVec 3) (yx : Byte) : Byte := let t := v.toNat / 2 ^ k.toNat % 2
    mkF (decide (k = 7 ∧ t = 1)) (decide (t = 0)) (yx.getLsbD 5) true (yx.getLsbD 3) (decide (t = 0)) false (flagC f)
  (∀ (k : BitVec 3) (r : R8) (s : State), let v := getR8 s r
    encode (.bitR k r) = [0xCB, 0b01#2 ++ k ++ r.code] ∧
    exec (.bitR k r) s = .next { ran s 2 2 (cyc2 s) with f := tested s.f v k v } ∧
    encode (.setR k r) = [0xCB, 0b11#2 ++ k ++ r.code] ∧
    exec (.setR k r) s = .next (setR8 r (v ||| (1 : Byte) <<< k.toNat) (ran s 2 2 (cyc2 s))) ∧
    encode (.resR k r) = [0xCB, 0b10#2 ++ k ++ r.code] ∧
    exec (.resR k r) s = .next (setR8 r (v &&& ~~~((1 : Byte) <<< k.toNat)) (ran s 2 2 (cyc2 s)))) ∧
  (∀ (k : BitVec 3) (s : State), let v := read8 s s.hl
    encode (.bitMemHl k) = [0xCB, 0b01#2 ++ k ++ 0b110#3] ∧
    exec (.bitMemHl k) s = .next
      { ran s 2 2 (cyc2 s ++ [.mem s.hl 3, .idle s.hl 1]) with f := tested s.f v k (hiByte s.memptr) } ∧
    encode (.setMemHl k) = [0xCB, 0b11#2 ++ k ++ 0b110#3] ∧
    exec (.setMemHl k) s = .next
      (ran (write8 s.hl (v ||| (1 : Byte) <<< k.toNat) s) 2 2 (cyc2 s ++ cycRmw s.hl)) ∧
    encode (.resMemHl k) = [0xCB, 0b10#2 ++ k ++ 0b110#3] ∧
    exec (.resMemHl k) s = .next
      (ran (write8 s.hl (v &&& ~~~((1 : Byte) <<< k.toNat)) s) 2 2 (cyc2 s ++ cycRmw s.hl))) ∧
  (∀ (xy : XY) (k z : BitVec 3) (d : Byte) (r : R8) (s : State), let w := getXy s xy + d.signExtend 16
    let v := read8 s w; let on := v ||| (1 : Byte) <<< k.toNat; let off := v &&& ~~~((1 : Byte) <<< k.toNat)
    let wrote (x : Byte) : State := { ran (write8 w x s) 4 2 (cycXy4 s ++ cycRmw w) with memptr := w }
    encode (.bitMemXy xy k d z) = [0b11#2 ++ xy.code ++ 0b11101#5, 0xCB, d, 0b01#2 ++ k ++ z] ∧
    exec (.bitMemXy xy k d z) s = .next
      { ran s 4 2 (cycXy4 s ++ [.mem w 3, .idle w 1]) with f := tested s.f v k (hiByte w), memptr := w } ∧
    encode (.setMemXy xy k d) = [0b11#2 ++ xy.code ++ 0b11101#5, 0xCB, d, 0b11#2 ++ k ++ 0b110#3] ∧
    exec (.setMemXy xy k d) s = .next (wrote on) ∧
    encode (.setMemXyR xy k d r) = [0b11#2 ++ xy.code ++ 0b11101#5, 0xCB, d, 0b11#2 ++ k ++ r.code] ∧
    exec (.setMemXyR xy k d r) s = .next (setR8 r on (wrote on)) ∧
    encode (.resMemXy xy k d) = [0b11#2 ++ xy.code ++ 0b11101#5, 0xCB, d, 0b10#2 ++ k ++ 0b110#3] ∧
    exec (.resMemXy xy k d) s = .next (wrote off) ∧
    encode (.resMemXyR xy k d r) = [0b11#2 ++ xy.code ++ 0b11101#5, 0xCB, d, 0b10#2 ++ k ++ r.code] ∧
    exec (.resMemXyR xy k d r) s = .next (setR8 r off (wrote off)))

/-- The jumps (48_jump_call_return R420 to R429): a relative target is counted from the address after the instruction;
only a taken relative jump writes MEMPTR, JP with an address always does, JP (HL) and JP (XY) never. -/
def Obligations.Jumps : Prop :=
  (∀ (cc : Cond) (nn : Word) (s : State), let lo := nn.extractLsb' 0 8; let hi := nn.extractLsb' 8 8
    encode (.jpNn nn) = [0xC3, lo, hi] ∧
    exec (.jpNn nn) s = .next { ran s 3 1 (cycNn1 s) with pc := nn, memptr := nn } ∧
    encode (.jpCcNn cc nn) = [0b11#2 ++ cc.code ++ 0b010#3, lo, hi] ∧
    exec (.jpCcNn cc nn) s = .next
      { ran s 3 1 (cycNn1 s) with pc := if condHolds s.f cc then nn else s.pc + 3, memptr := nn }) ∧
  (∀ (e : Byte) (s : State), let dest := s.pc + 2 + e.signExtend 16
    let stay : State := ran s 2 1 [.mem s.pc 4, .mem (s.pc + 1) 3]
    let go : State :=
      { ran s 2 1 [.mem s.pc 4, .mem (s.pc + 1) 3, .idle (s.pc + 1) 5] with pc := dest, memptr := dest }
    let cs : List Cycle := [.mem s.pc 4, .idle (irAfter s 1) 1, .mem (s.pc + 1) 3]
    encode (.jr e) = [0x18, e] ∧ exec (.jr e) s = .next go ∧
    encode (.jrC e) = [0x38, e] ∧ exec (.jrC e) s = .next (if flagC s.f then go else stay) ∧
    encode (.jrNc e) = [0x30, e] ∧ exec (.jrNc e) s = .next (if flagC s.f then stay else go) ∧
    encode (.jrZ e) = [0x28, e] ∧ exec (.jrZ e) s = .next (if flagZ s.f then go else stay) ∧
    encode (.jrNz e) = [0x20, e] ∧ exec (.jrNz e) s = .next (if flagZ s.f then stay else go) ∧
    encode (.djnz e) = [0x10, e] ∧
    exec (.djnz e) s = .next
      (if s.b - 1 = 0 then { ran s 2 1 cs with b := 0 }
       else { ran s 2 1 (cs ++ [.idle (s.pc + 1) 5]) with b := s.b - 1, pc := dest, memptr := dest })) ∧
  (∀ (xy : XY) (s : State),
    encode .jpHl = [0xE9] ∧ exec .jpHl s = .next { ran s 1 1 (cyc1 s) with pc := s.hl } ∧
    encode (.jpXy xy) = [0b11#2 ++ xy.code ++ 0b11101#5, 0xE9] ∧
    exec (.jpXy xy) s = .next { ran s 2 2 (cyc2 s) with pc := getXy s xy })

/-- The calls, restarts and returns (48_jump_call_return R430 to R436): a call pushes the address after it; every return
pops PC; RETI and RETN also copy IFF2 to IFF1. -/
def Obligations.CallsReturns : Prop :=
  (∀ (cc : Cond) (nn : Word) (s : State), let lo := nn.extractLsb' 0 8; let hi := nn.extractLsb' 8 8
    let called : State :=
      { ran (pushed16 (s.pc + 3) s) 3 1 (cycNn1 s ++ [.idle (s.pc + 2) 1] ++ cycPush s) with pc := nn, memptr := nn }
    encode (.callNn nn) = [0xCD, lo, hi] ∧ exec (.callNn nn) s = .next called ∧
    encode (.callCcNn cc nn) = [0b11#2 ++ cc.code ++ 0b100#3, lo, hi] ∧
    exec (.callCcNn cc nn) s = .next
      (if condHolds s.f cc then called else { ran s 3 1 (cycNn1 s) with memptr := nn })) ∧
  (∀ (cc : Cond) (u t : BitVec 3) (s : State), let dest := read8 s (s.sp + 1) ++ read8 s s.sp
    let back (n m : Nat) (cs : List Cycle) : State :=
      { ran s n m (cs ++ cycPop s) with sp := s.sp + 2, pc := dest, memptr := dest }
    encode .ret = [0xC9] ∧ exec .ret s = .next (back 1 1 (cyc1 s)) ∧
    encode (.retCc cc) = [0b11#2 ++ cc.code ++ 0b000#3] ∧
    exec (.retCc cc) s = .next
      (if condHolds s.f cc then back 1 1 (cyc1 s ++ [.idle (irAfter s 1) 1])
       else ran s 1 1 (cyc1 s ++ [.idle (irAfter s 1) 1])) ∧
    encode .reti = [0xED, 0x4D] ∧ exec .reti s = .next { back 2 2 (cyc2 s) with iff1 := s.iff2 } ∧
    encode (.retn u) = [0xED, 0b01#2 ++ u ++ 0b101#3] ∧
    exec (.retn u) s = .next { back 2 2 (cyc2 s) with iff1 := s.iff2 } ∧
    encode (.rst t) = [0b11#2 ++ t ++ 0b111#3] ∧
    exec (.rst t) s = .next
      { ran (pushed16 (s.pc + 1) s) 1 1 (cyc1 s ++ [.idle (irAfter s 1) 1] ++ cycPush s) with
        pc := BitVec.ofNat 16 (8 * t.toNat), memptr := BitVec.ofNat 16 (8 * t.toNat) })

/-- The inputs (49_io R450 to R456): the port is read at the start of the I/O cycle; a block input reads port BC with the
old B and stores the byte at HL. -/
def Obligations.Inputs : Prop :=
  (∀ (n : Byte) (s : State), let t := ran s 2 1 [.mem s.pc 4, .mem (s.pc + 1) 3]; let p : Word := s.a ++ n
    encode (.inAN n) = [0xDB, n] ∧
    exec (.inAN n) s = .next { ran t 0 0 [.io p] with a := portRead t p, memptr := p + 1 }) ∧
  (∀ (r : R8) (s : State), let t := ran s 2 2 (cyc2 s); let v := portRead t s.bc
    let f := mkF (v.getLsbD 7) (v == 0) (v.getLsbD 5) false (v.getLsbD 3) (parity v) false (flagC s.f)
    encode (.inRC r) = [0xED, 0b01#2 ++ r.code ++ 0b000#3] ∧
    exec (.inRC r) s = .next (setR8 r v { ran t 0 0 [.io s.bc] with f := f, memptr := s.bc + 1 }) ∧
    encode .inC = [0xED, 0x70] ∧
    exec .inC s = .next { ran t 0 0 [.io s.bc] with f := f, memptr := s.bc + 1 }) ∧
  (∀ s : State, let t := ran s 2 2 (cyc2 s ++ [.idle (irAfter s 2) 1]); let v := portRead t s.bc; let b := s.b - 1
    let took (delta : Word) (c : Byte) (cs : List Cycle) : State := let k := v.toNat + c.toNat
      { ran (write8 s.hl v t) 0 0 ([.io s.bc, .mem s.hl 3] ++ cs) with
        b := b, h := hiByte (s.hl + delta), l := loByte (s.hl + delta), memptr := s.bc + delta
        f := mkF (b.getLsbD 7) (b == 0) (b.getLsbD 5) (decide (k > 255)) (b.getLsbD 3)
          (parity (BitVec.ofNat 8 (k % 8) ^^^ b)) (v.getLsbD 7) (decide (k > 255)) }
    let again (delta : Word) (c : Byte) : State := { took delta c [.idle s.hl 5] with pc := s.pc }
    encode .ini = [0xED, 0xA2] ∧ exec .ini s = .next (took 1 (s.c + 1) []) ∧
    encode .ind = [0xED, 0xAA] ∧ exec .ind s = .next (took (-1) (s.c - 1) []) ∧
    encode .inir = [0xED, 0xB2] ∧
    exec .inir s = .next (if b ≠ 0 then again 1 (s.c + 1) else took 1 (s.c + 1) []) ∧
    encode .indr = [0xED, 0xBA] ∧
    exec .indr s = .next (if b ≠ 0 then again (-1) (s.c - 1) else took (-1) (s.c - 1) []))

/-- The outputs (49_io R457 to R463): the port is written at the start of the I/O cycle; a block output addresses the
port with B already decremented; the page map a repeat's last T-states see is the new one (20_memory R86). -/
def Obligations.Outputs : Prop :=
  (∀ (n : Byte) (s : State), encode (.outNA n) = [0xD3, n] ∧
    exec (.outNA n) s = .next
      { wrotePort (s.a ++ n) s.a (ran s 2 1 [.mem s.pc 4, .mem (s.pc + 1) 3]) with memptr := s.a ++ (n + 1) }) ∧
  (∀ (r : R8) (s : State), encode (.outCR r) = [0xED, 0b01#2 ++ r.code ++ 0b001#3] ∧
    exec (.outCR r) s = .next { wrotePort s.bc (getR8 s r) (ran s 2 2 (cyc2 s)) with memptr := s.bc + 1 } ∧
    encode .outC0 = [0xED, 0x71] ∧
    exec .outC0 s = .next { wrotePort s.bc 0x00 (ran s 2 2 (cyc2 s)) with memptr := s.bc + 1 }) ∧
  (∀ s : State, let t := ran s 2 2 (cyc2 s ++ [.idle (irAfter s 2) 1, .mem s.hl 3]); let v := read8 s s.hl
    let b := s.b - 1; let p : Word := b ++ s.c
    let gave (delta : Word) : State := let hl := s.hl + delta; let k := v.toNat + (loByte hl).toNat
      { wrotePort p v t with
        b := b, h := hiByte hl, l := loByte hl, memptr := p + delta
        f := mkF (b.getLsbD 7) (b == 0) (b.getLsbD 5) (decide (k > 255)) (b.getLsbD 3)
          (parity (BitVec.ofNat 8 (k % 8) ^^^ b)) (v.getLsbD 7) (decide (k > 255)) }
    let again (delta : Word) : State := { ran (gave delta) 0 0 [.idle p 5] with pc := s.pc }
    encode .outi = [0xED, 0xA3] ∧ exec .outi s = .next (gave 1) ∧
    encode .outd = [0xED, 0xAB] ∧ exec .outd s = .next (gave (-1)) ∧
    encode .otir = [0xED, 0xB3] ∧ exec .otir s = .next (if b ≠ 0 then again 1 else gave 1) ∧
    encode .otdr = [0xED, 0xBB] ∧ exec .otdr s = .next (if b ≠ 0 then again (-1) else gave (-1)))

/-! ### Ports and time -/

/-- A port read (60_exceptions R540, R542, R546): every even port reads the keyboard rows its high half selects and the
tape input; on the model with a sound chip 0xFFFD reads the selected register; any other port the floating bus, which the
spec leaves open (D9): that it is the configuration's constant or the free value of the time, the port, the RAM and the
paging latch is the model's choice (log 7). -/
def Obligations.PortReads : Prop :=
  ∀ (s : State) (p : Word),
    (p.getLsbD 0 = false → ∀ k : Nat, k < 8 → (portRead s p).getLsbD k =
      if k < 5 then decide (∀ i : Fin 8, p.getLsbD (8 + i.val) = false → s.keyrow[i].getLsbD k = true)
      else if k = 6 then s.tapeIn else true) ∧
    (p.getLsbD 0 = true → s.cfg.model = .m128 → p.getLsbD 15 = true → p.getLsbD 14 = true → p.getLsbD 1 = false →
      portRead s p = s.ayReg[s.aySel.toFin]) ∧
    (p.getLsbD 0 = true →
      ¬(s.cfg.model = .m128 ∧ p.getLsbD 15 = true ∧ p.getLsbD 14 = true ∧ p.getLsbD 1 = false) →
      portRead s p = match s.cfg.floatingBus with
        | .constant v => v
        | .free => Config.freeBus s.frameT p s.ram s.paging)

/-- A port write (60_exceptions R541, R543 to R545): it is always logged with the time; an even port sets border, MIC and
beeper; on the 128K model the paging latch takes it unless locked, and the sound chip selects or writes a register under
its mask; nothing else changes. -/
def Obligations.PortWrites : Prop :=
  ∀ (s : State) (p : Word) (v : Byte), let t := portWrite p v s
    let m : Byte := match s.aySel.toNat with
      | 1 | 3 | 5 | 13 => 0x0F
      | 6 | 8 | 9 | 10 => 0x1F
      | _ => 0xFF
    let ay := s.cfg.model = .m128 ∧ p.getLsbD 15 = true ∧ p.getLsbD 1 = false
    t.log = s.log ++ [⟨s.frameT, p, v⟩] ∧
    t.border = (if p.getLsbD 0 then s.border else v.extractLsb' 0 3) ∧
    t.mic = (if p.getLsbD 0 then s.mic else v.getLsbD 3) ∧
    t.beeper = (if p.getLsbD 0 then s.beeper else v.getLsbD 4) ∧
    (s.cfg.model = .m128 ∧ p.getLsbD 15 = false ∧ p.getLsbD 1 = false ∧ s.paging.getLsbD 5 = false →
      t.paging = v.extractLsb' 0 6) ∧
    (¬(s.cfg.model = .m128 ∧ p.getLsbD 15 = false ∧ p.getLsbD 1 = false ∧ s.paging.getLsbD 5 = false) →
      t.paging = s.paging) ∧
    (ay ∧ p.getLsbD 14 = true → t.aySel = v.extractLsb' 0 4 ∧ t.ayReg = s.ayReg) ∧
    (ay ∧ p.getLsbD 14 = false → t.aySel = s.aySel ∧
      ∀ j : Fin 16, t.ayReg[j] = if j = s.aySel.toFin then v &&& m else s.ayReg[j]) ∧
    (¬ay → t.aySel = s.aySel ∧ t.ayReg = s.ayReg) ∧
    t = { s with
      log := t.log, border := t.border, mic := t.mic, beeper := t.beeper, paging := t.paging, aySel := t.aySel
      ayReg := t.ayReg }

/-- Contention (20_memory R89, 70_reset R613, R614, R616, R617): the delay of each position of a display line, the
addresses that wait, and the cycles of memory, of internal T-states and of a port, by the port's address. That what a
configuration adds to CONT_FIRST is a number of its own, `contShift`, is the model's choice (log 1); it is 0 by default, and
the first line then begins where R613 says. -/
def Obligations.Contention : Prop :=
  (∀ (cfg : Config) (t : Nat),
    let first := (match cfg.model with | .m48 => 14335 | .m128 => 14361) + cfg.contShift
    let len := match cfg.model with | .m48 => 224 | .m128 => 228
    delay cfg t =
      if t < first ∨ first + 192 * len ≤ t ∨ 128 ≤ (t - first) % len then 0
      else [6, 5, 4, 3, 2, 1, 0, 0].getD ((t - first) % len % 8) 0) ∧
  (∀ (s : State) (a : Word),
    (s.cfg.model = .m48 → contended s a = decide (0x4000 ≤ a.toNat ∧ a.toNat < 0x8000)) ∧
    (s.cfg.model = .m128 → contended s a =
      decide ((0x4000 ≤ a.toNat ∧ a.toNat < 0x8000) ∨ (0xC000 ≤ a.toNat ∧ s.paging.toNat % 2 = 1)))) ∧
  (∀ (s : State) (a : Word) (n k : Nat), let w (t : Nat) : Nat := if contended s a then delay s.cfg t else 0
    cycle a n s = { s with frameT := s.frameT + w s.frameT + n } ∧
    internal a 0 s = s ∧
    internal a (k + 1) s = internal a k { s with frameT := s.frameT + w s.frameT + 1 }) ∧
  (∀ (s : State) (p : Word), let c (n t : Nat) : Nat := t + delay s.cfg t + n
    let finish :=
      if contended s p = false ∧ p.getLsbD 0 = true then s.frameT + 4
      else if contended s p = false then c 3 (s.frameT + 1)
      else if p.getLsbD 0 = false then c 3 (c 1 s.frameT)
      else c 1 (c 1 (c 1 (c 1 s.frameT)))
    ioCycle p s = { s with frameT := finish })

/-! ### The step -/

/-- A step of the machine runs the decoded instruction: when the coordinator has done its part and no interrupt is taken
and the CPU is not halted, the instruction the bytes at PC decode to is executed, with `inhibit` cleared. -/
def Obligations.StepRunsDecoded : Prop :=
  ∀ (s : State) (i : Instr) (rest : List Byte), stepKind (coordinate s) = .instruction →
    decode (fetchWindow (coordinate s)) = .ok (i, rest) → i.WellFormed = true →
    step s = exec i { coordinate s with inhibit := false } ∧
    fetchWindow s = [read8 s s.pc, read8 s (s.pc + 1), read8 s (s.pc + 2), read8 s (s.pc + 3)] ∧
    fetchWindow (coordinate s) = fetchWindow s

/-- One of four things, in this order (60_exceptions R504, R506): the NMI, the maskable interrupt, a halted cycle that
changes R and the time only, the instruction at PC; `inhibit` skips the first two and is cleared. -/
def Obligations.StepPriority : Prop :=
  ∀ s : State, let t := { s with inhibit := false }
    let accepts := s.intState = .pending ∧ s.iff1 = true ∧
      (s.cfg.intHold = none ∨ ∃ n, s.cfg.intHold = some n ∧ s.frameT < s.cfg.intOffset + n)
    (s.inhibit = false ∧ s.nmiPending = true → cpuStep s = .next (nmiResponse t)) ∧
    (s.inhibit = false ∧ s.nmiPending = false ∧ accepts → cpuStep s = intResponse t) ∧
    ((s.inhibit = true ∨ (s.nmiPending = false ∧ ¬accepts)) →
      (s.halted = true →
        cpuStep s = .next { t with r := refreshed s.r 1, frameT := timeAfter s.cfg s.paging s.frameT [.mem s.pc 4] }) ∧
      (s.halted = false → ∃ i, i.WellFormed = true ∧
        decode (fetchWindow s) = .ok (i, (fetchWindow s).drop i.length) ∧ cpuStep s = exec i t))

/-- The two interrupt responses (60_exceptions R507 to R511, 70_reset R618): PC is pushed and nothing else saved; the
NMI keeps IFF2 and goes to 0x0066; the maskable interrupt clears both and goes to the RST address of the bus byte, to
0x0038, or to the word at `I : INT_BUS_BYTE` read after the push; in mode 0 a byte that is no RST is refused. -/
def Obligations.InterruptResponses : Prop :=
  ∀ s : State,
    nmiResponse s =
      { ran (pushed16 s.pc s) 0 1 ([.ack 5] ++ cycPush s) with
        nmiPending := false, halted := false, iff1 := false, pc := 0x0066, memptr := 0x0066 } ∧
    (let entered : State :=
      { ran (pushed16 s.pc s) 0 1 ([.ack 7] ++ cycPush s) with
        intState := .serviced, halted := false, iff1 := false, iff2 := false }
     let v : Word := s.i ++ s.cfg.intBusByte
     let dest := read8 (pushed16 s.pc s) (v + 1) ++ read8 (pushed16 s.pc s) v
     intResponse s = match s.im with
      | .im0 =>
        if s.cfg.intBusByte.toNat / 64 = 3 ∧ s.cfg.intBusByte.toNat % 8 = 7 then
          .next { entered with
            pc := BitVec.ofNat 16 (s.cfg.intBusByte.toNat / 8 % 8 * 8)
            memptr := BitVec.ofNat 16 (s.cfg.intBusByte.toNat / 8 % 8 * 8) }
        else .refused .im0NonRst
      | .im1 => .next { entered with pc := 0x0038, memptr := 0x0038 }
      | .im2 => .next { ran entered 0 0 [.mem v 3, .mem (v + 1) 3] with pc := dest, memptr := dest })

/-- No instruction traps and no step faults (60_exceptions R500, R501, R515): every instruction answers a next state in
every state; a step is refused exactly when a maskable interrupt is accepted in mode 0 with a bus byte that is no RST. -/
def Obligations.NoTrap : Prop :=
  (∀ (i : Instr) (s : State), ∃ t, exec i s = .next t) ∧
  (∀ (s : State) (e : Fault), step s ≠ .fault e) ∧
  (∀ (s : State) (e : Refusal), step s = .refused e ↔
    e = .im0NonRst ∧ stepKind (coordinate s) = .int ∧ s.im = .im0 ∧ s.cfg.intBusByte &&& 0xC7 ≠ 0xC7)

/-- What the coordinator does (60_exceptions R520 to R522): it raises the request once per frame, when the time has
reached INT_OFFSET; it ends a frame whose budget is met, the overshoot carried over, and starts the next with the
request Idle and the log empty; a bare step of the host's has none of it (log 6). -/
def Obligations.Coordinator : Prop :=
  ∀ s : State, let B := frameTstates s.cfg.model
    (s.drive = .single → coordinate s = s) ∧
    (s.drive = .frames → s.frameT < B →
      coordinate s = { s with intState :=
        if s.intState = .idle ∧ s.cfg.intOffset ≤ s.frameT then .pending else s.intState }) ∧
    (s.drive = .frames → B ≤ s.frameT →
      coordinate s = { s with
        frameT := s.frameT - B, log := [], intState := if s.cfg.intOffset ≤ s.frameT - B then .pending else .idle }) ∧
    (∀ fuel, s.drive = .frames → s.frameT < B → frameLoop (fuel + 1) s =
      match step s with
      | .next t => frameLoop fuel t
      | .fault e => .fault e
      | .refused e => .refused e)

/-- The transitions of the request (60_exceptions R503) and the writers of `inhibit` and `nmi_pending` (10_state R34 to
R36): a step changes the request only by accepting it; only EI and NONI leave `inhibit` set. -/
def Obligations.InterruptState : Prop :=
  (∀ s : State,
    (startFrame s).intState = .idle ∧
    (raiseInt s).intState =
      (if s.intState = .idle ∧ s.cfg.intOffset ≤ s.frameT then .pending else s.intState) ∧
    (endFrame s).intState = (if s.intState = .idle then .pending else s.intState)) ∧
  (∀ s t : State, cpuStep s = .next t →
    t.intState = (if stepKind s = .int then .serviced else s.intState) ∧
    t.nmiPending = (if stepKind s = .nmi then false else s.nmiPending) ∧
    (t.inhibit = true ↔ stepKind s = .instruction ∧
      ∃ i rest, decode (fetchWindow s) = .ok (i, rest) ∧ (i = .ei ∨ ∃ xy, i = .noni xy)))

/-- How R counts (10_state R29): one per opcode fetch, so once for an unprefixed instruction and a NONI, twice after a CB,
ED, DD or FD byte; once per interrupt response and per halted cycle; bit 7 stays; only LD R,A writes R whole; LD A,R
reads R after its own fetches. -/
def Obligations.RefreshCount : Prop :=
  (∀ (i : Instr) (s t : State), exec i s = .next t →
    t.r = if i = .ldRA then s.a
      else s.r.extractLsb' 7 1 ++ BitVec.ofNat 7 (s.r.toNat % 128 + opFetches i)) ∧
  (∀ s t : State, exec .ldAR s = .next t → t.a = t.r) ∧
  (∀ s t : State, cpuStep s = .next t → stepKind s ≠ .instruction →
    t.r = s.r.extractLsb' 7 1 ++ BitVec.ofNat 7 (s.r.toNat % 128 + 1))

/-- The lock bit of the paging latch (20_memory R83, 60_exceptions R544): once it is 1, no step changes the latch; on the
48K model none ever does. -/
def Obligations.PagingLock : Prop :=
  ∀ s t : State, step s = .next t →
    (s.paging.getLsbD 5 = true → t.paging = s.paging) ∧ (s.cfg.model = .m48 → t.paging = s.paging)

/-- The end of a run (70_reset R620): from an ended state every step is a halted cycle, which changes only R and the
time; the state stays ended. -/
def Obligations.EndedStays : Prop :=
  ∀ s : State, s.ended →
    cpuStep s = .next { s with
      inhibit := false, r := refreshed s.r 1, frameT := timeAfter s.cfg s.paging s.frameT [.mem s.pc 4] } ∧
    ∃ t, step s = .next t ∧ t.ended ∧ t.pc = s.pc ∧ t.ram = s.ram

/-- What a step costs (60_exceptions R504, 70_reset R619): at least 4 T-states and fewer than 128. -/
def Obligations.StepCost : Prop :=
  ∀ s t : State, cpuStep s = .next t → s.frameT + 4 ≤ t.frameT ∧ t.frameT < s.frameT + 128

/-- A frame (60_exceptions R520, R521, R523). `runFrame()` ends: from a time within the budget it completes at B or beyond
by less than 128; the overshoot carries over; the request has been raised; the log and the video RAM are returned. Or it is
refused, and then only because some step of the frame accepts a maskable interrupt in mode 0 with a bus byte that is no
RST (R508): modes 1 and 2, and every mode with an RST byte, complete. The loop is written with a fuel that always suffices
(log 16). -/
def Obligations.RunFrame : Prop :=
  ∀ s : State,
    (∃ t res, runFrame s = .next (t, res) ∧
      frameTstates s.cfg.model ≤ res.completed ∧
      (s.frameT < frameTstates s.cfg.model → res.completed < frameTstates s.cfg.model + 128) ∧
      t.frameT + frameTstates s.cfg.model = res.completed ∧
      t.intState ≠ .idle ∧ res.log = t.log ∧ res.video.length = 6912 ∧
      ∀ k, k < 6912 → res.video[k]? = some (t.ram.read
        ((match t.cfg.model with | .m48 => 0 | .m128 => if t.paging.getLsbD 3 then 7 else 5) * 16384 + k))) ∨
    (s.cfg.intBusByte &&& 0xC7 ≠ 0xC7 ∧ runFrame s = .refused .im0NonRst ∧
      ∃ k u, frameLoop k (startFrame s) = .next u ∧ u.frameT < frameTstates s.cfg.model ∧
        stepKind (raiseInt u) = .int ∧ u.im = .im0)

/-- Every step keeps the invariant: both banks of memory canonical and within their pages, and no paging latch on the 48K
model (10_state R39, R40). -/
def Obligations.StepKeepsInv : Prop :=
  ∀ s t : State, s.Inv → step s = .next t → t.Inv

/-- The invariant holds at reset. -/
def Obligations.ResetInv : Prop := State.reset.Inv

/-- No step changes the ROM, the configuration, the keyboard and tape inputs or what `step` stands for (10_state R39, R42,
00_scope R7). -/
def Obligations.StepKeepsInputs : Prop :=
  ∀ s t : State, step s = .next t → SameInputs s t

/-! ### Frames: what an instruction leaves as it was -/

/-- A register that is no destination of an instruction keeps its value: the shadow set, the index registers, SP, I and
MEMPTR among them; R and PC have their own statements. -/
def Obligations.RegisterFrame : Prop :=
  ∀ (i : Instr) (s t : State), exec i s = .next t → ∀ g : Reg, g ∉ destsOf i → g.value t = g.value s

/-- A flag the spec does not name for an instruction keeps its value (10_state R27). -/
def Obligations.FlagFrame : Prop :=
  ∀ (i : Instr) (s t : State), exec i s = .next t →
    ∀ k, k < 8 → (flagMaskOf i).getLsbD k = false → t.f.getLsbD k = s.f.getLsbD k

/-- Every byte of every page is unchanged but those at the addresses the instruction stores to; and, but for a port
write that may change the map, every address outside them reads as before. -/
def Obligations.MemoryFrame : Prop :=
  ∀ (i : Instr) (s t : State), exec i s = .next t →
    (∀ (q : Page) (off : Nat), off < pageSize → (∀ w ∈ storeAddrs s i, placeOf s w ≠ (q, off)) →
      byteAt t (q, off) = byteAt s (q, off)) ∧
    (writesPort i = false → ∀ a : Word, (∀ w ∈ storeAddrs s i, placeOf s w ≠ placeOf s a) → read8 t a = read8 s a)

/-- Only an output instruction changes the port latches, the paging latch, the sound registers or the log. -/
def Obligations.PortFrame : Prop :=
  ∀ (i : Instr) (s t : State), exec i s = .next t → writesPort i = false → SamePorts s t

/-- The instructions that write the interrupt state (10_state R30 to R32, R34 to R36): EI and DI both flip-flops, RETI
and RETN only IFF1, IM the mode, HALT the halted state, EI and NONI `inhibit`; no instruction touches the request or the
pending NMI. -/
def Obligations.InterruptFrame : Prop :=
  ∀ (i : Instr) (s t : State), exec i s = .next t →
    t.iff1 = (match i with | .ei => true | .di => false | .reti | .retn _ => s.iff2 | _ => s.iff1) ∧
    t.iff2 = (match i with | .ei => true | .di => false | _ => s.iff2) ∧
    t.im = (match i with | .im0 _ _ => .im0 | .im1 _ => .im1 | .im2 _ => .im2 | _ => s.im) ∧
    t.halted = (match i with | .halt => true | _ => s.halted) ∧
    t.inhibit = (match i with | .ei | .noni _ => true | _ => s.inhibit) ∧
    t.intState = s.intState ∧ t.nmiPending = s.nmiPending

/-- A pushed return address comes back: after a CALL, an RST or an NMI with its stack in RAM, `RET` at the target returns
to the address after it with SP restored (20_memory R75, 48_jump_call_return R430, R432, R436, 60_exceptions R511). -/
def Obligations.CallReturns : Prop :=
  ∀ (s : State) (m n : Nat), s.Inv → pageAt s (s.sp - 1) = .ram m → pageAt s (s.sp - 2) = .ram n →
    (∀ nn t u, exec (.callNn nn) s = .next t → exec .ret t = .next u → u.pc = s.pc + 3 ∧ u.sp = s.sp) ∧
    (∀ k t u, exec (.rst k) s = .next t → exec .ret t = .next u → u.pc = s.pc + 1 ∧ u.sp = s.sp) ∧
    (∀ k u, exec (.retn k) (nmiResponse s) = .next u → u.pc = s.pc ∧ u.sp = s.sp ∧ u.iff1 = s.iff2)

/-! ### Reset, snapshots -/

/-- `reset()` (70_reset R600): the registers the spec defines, the draw `p` for the others, and what it leaves. -/
def Obligations.Reset : Prop :=
  ∀ (p : PowerOn) (s : State), let t := resetWith p s
    t.pc = 0x0000 ∧ t.sp = 0xFFFF ∧ t.iff1 = false ∧ t.iff2 = false ∧ t.im = .im0 ∧ t.i = 0x00 ∧ t.r = 0x00 ∧
    t.a = p.a ∧ t.f = p.f ∧ t.b = p.b ∧ t.c = p.c ∧ t.d = p.d ∧ t.e = p.e ∧ t.h = p.h ∧ t.l = p.l ∧
    t.a' = p.a' ∧ t.f' = p.f' ∧ t.b' = p.b' ∧ t.c' = p.c' ∧ t.d' = p.d' ∧ t.e' = p.e' ∧ t.h' = p.h' ∧ t.l' = p.l' ∧
    t.ix = p.ix ∧ t.iy = p.iy ∧ t.memptr = p.memptr ∧
    t.halted = false ∧ t.inhibit = false ∧ t.nmiPending = false ∧ t.intState = .idle ∧ t.frameT = 0 ∧ t.log = [] ∧
    t.paging = (if s.cfg.model = .m128 then 0 else s.paging) ∧
    t.ram = s.ram ∧ t.border = s.border ∧ t.beeper = s.beeper ∧ t.mic = s.mic ∧ t.aySel = s.aySel ∧
    t.ayReg = s.ayReg ∧ SameInputs s t

/-- `State.reset` is a machine built and reset (70_reset R601) with the default configuration, an empty ROM image and one
draw; the draw and the empty memory are the model's choice (log 2, log 3, log 5), and nothing is said of their values. -/
def Obligations.ResetState : Prop :=
  State.reset.pc = 0x0000 ∧ State.reset.sp = 0xFFFF ∧ State.reset.iff1 = false ∧ State.reset.iff2 = false ∧
  State.reset.im = .im0 ∧ State.reset.halted = false ∧ State.reset.intState = .idle ∧ State.reset.frameT = 0 ∧
  ∃ k p, State.reset = construct Config.default [] k p .frames

/-- `loadSnapshot` (70_reset R604): accepted exactly when the page count, the page sizes, the mode and, on the 48K model,
the paging value pass; then every field of the structure is written, the execution state is cleared, and the rest
stays. -/
def Obligations.LoadSnapshot : Prop :=
  ∀ (n : Snapshot) (draw : Word) (s : State),
    ((loadSnapshot n draw s).isSome = true ↔
      n.pages.length = ramPages s.cfg.model ∧ (∀ p ∈ n.pages, p.length = 16384) ∧ n.im < 3 ∧
        (s.cfg.model = .m48 → n.paging = 0)) ∧
    ∀ t, loadSnapshot n draw s = some t →
      t.a = n.a ∧ t.f = n.f ∧ t.b = n.b ∧ t.c = n.c ∧ t.d = n.d ∧ t.e = n.e ∧ t.h = n.h ∧ t.l = n.l ∧
      t.a' = n.a' ∧ t.f' = n.f' ∧ t.b' = n.b' ∧ t.c' = n.c' ∧ t.d' = n.d' ∧ t.e' = n.e' ∧ t.h' = n.h' ∧ t.l' = n.l' ∧
      t.ix = n.ix ∧ t.iy = n.iy ∧ t.sp = n.sp ∧ t.pc = n.pc ∧ t.i = n.i ∧ t.r = n.r ∧
      t.iff1 = n.iff1 ∧ t.iff2 = n.iff2 ∧ intModeNum t.im = n.im ∧ t.memptr = draw ∧
      (s.cfg.model = .m128 → t.paging = n.paging.extractLsb' 0 6) ∧
      (∀ (j off : Nat) (p : List Byte) (v : Byte), n.pages[j]? = some p → p[off]? = some v →
        t.ram.read (j * 16384 + off) = v) ∧
      t.halted = false ∧ t.inhibit = false ∧ t.nmiPending = false ∧
      t.intState = s.intState ∧ t.frameT = s.frameT ∧ t.log = s.log ∧ t.border = s.border ∧ t.beeper = s.beeper ∧
      t.mic = s.mic ∧ t.aySel = s.aySel ∧ t.ayReg = s.ayReg ∧ SameInputs s t

/-- The snapshot round trip (70_reset R604, R605; an absent paging value is 0, log 11): a dump is accepted and loading it gives back the state but for what a
snapshot does not hold; a dump right after an accepted load is the structure loaded, its paging value cut to 6 bits. -/
def Obligations.SnapshotRoundTrip : Prop :=
  (∀ (s : State) (draw : Word), s.Inv →
    loadSnapshot (dumpSnapshot s) draw s =
      some { s with halted := false, inhibit := false, nmiPending := false, memptr := draw }) ∧
  (∀ (n : Snapshot) (draw : Word) (s t : State), s.Inv → loadSnapshot n draw s = some t →
    dumpSnapshot t = { n with paging := n.paging &&& 0x3F })
end

