-- ==== Sys2Proof/Laws/Memory.lean ====
section
/-! SUPPORT. What the operations on a bank do: reads after writes, and that the canonical form is kept. -/

namespace Sys2Proof.Machine

theorem Memory.read_nil (k : Nat) : Memory.read [] k = unlistedByte := rfl

theorem Memory.read_cell (a : Nat) (v : Byte) (m : Memory) (k : Nat) :
    Memory.read ((a, v) :: m) k = if a = k then v else Memory.read m k := rfl

/-- A key below every listed key reads as unlisted. -/
theorem Memory.read_of_lt {lo : Nat} {m : Memory} (h : Memory.wfFrom lo m = true) {k : Nat} (hk : k < lo) :
    m.read k = unlistedByte := by
  induction m generalizing lo with
  | nil => rfl
  | cons c m ih =>
    obtain ⟨a, v⟩ := c
    simp only [Memory.wfFrom, Bool.and_eq_true, decide_eq_true_eq] at h
    rw [Memory.read_cell, if_neg (by omega)]
    exact ih h.2 (by omega)

theorem Memory.wfFrom_mono {lo lo' : Nat} {m : Memory} (h : Memory.wfFrom lo m = true) (hl : lo' ≤ lo) :
    Memory.wfFrom lo' m = true := by
  cases m with
  | nil => rfl
  | cons c m =>
    obtain ⟨a, v⟩ := c
    simp only [Memory.wfFrom, Bool.and_eq_true, decide_eq_true_eq] at h ⊢
    exact ⟨⟨by omega, h.1.2⟩, h.2⟩

theorem Memory.cons_wf {lo k : Nat} {v : Byte} {m : Memory} (hk : lo ≤ k) (h : Memory.wfFrom (k + 1) m = true) :
    Memory.wfFrom lo (Memory.cons k v m) = true := by
  unfold Memory.cons
  split
  · exact Memory.wfFrom_mono h (by omega)
  · simp [Memory.wfFrom, *]

/-- What `cons` reads as, when the key is below every key of the list. -/
theorem Memory.cons_read {k : Nat} {v : Byte} {m : Memory} (h : Memory.wfFrom (k + 1) m = true) (j : Nat) :
    (Memory.cons k v m).read j = if j = k then v else m.read j := by
  unfold Memory.cons
  split
  · rename_i hv
    split
    · rename_i hj
      rw [hj, Memory.read_of_lt h (Nat.lt_succ_self k), hv]
    · rfl
  · rw [Memory.read_cell]
    by_cases hj : j = k
    · simp [hj]
    · rw [if_neg (Ne.symm hj), if_neg hj]

theorem Memory.write_wfFrom {lo : Nat} {m : Memory} (h : Memory.wfFrom lo m = true) {k : Nat} (hk : lo ≤ k) (v : Byte) :
    Memory.wfFrom lo (m.write k v) = true := by
  induction m generalizing lo with
  | nil => exact Memory.cons_wf hk rfl
  | cons c m ih =>
    obtain ⟨a, w⟩ := c
    have h' := h
    simp only [Memory.wfFrom, Bool.and_eq_true, decide_eq_true_eq] at h
    unfold Memory.write
    split
    · refine Memory.cons_wf hk ?_
      simp only [Memory.wfFrom, Bool.and_eq_true, decide_eq_true_eq]
      exact ⟨⟨by omega, h.1.2⟩, h.2⟩
    · split
      · rename_i hka
        exact Memory.cons_wf hk (hka ▸ h.2)
      · simp only [Memory.wfFrom, Bool.and_eq_true, decide_eq_true_eq]
        exact ⟨h.1, ih h.2 (by omega)⟩

/-- A write keeps the canonical form. -/
theorem Memory.write_wf {m : Memory} (h : m.wf = true) (k : Nat) (v : Byte) : (m.write k v).wf = true :=
  Memory.write_wfFrom h (Nat.zero_le k) v

theorem Memory.write_readFrom {lo : Nat} {m : Memory} (h : Memory.wfFrom lo m = true) {k : Nat} (hk : lo ≤ k) (v : Byte)
    (j : Nat) : (m.write k v).read j = if j = k then v else m.read j := by
  induction m generalizing lo with
  | nil => exact Memory.cons_read rfl j
  | cons c m ih =>
    obtain ⟨a, w⟩ := c
    have h' := h
    simp only [Memory.wfFrom, Bool.and_eq_true, decide_eq_true_eq] at h
    unfold Memory.write
    split
    · refine Memory.cons_read ?_ j
      simp only [Memory.wfFrom, Bool.and_eq_true, decide_eq_true_eq]
      exact ⟨⟨by omega, h.1.2⟩, h.2⟩
    · split
      · rename_i hka
        subst hka
        rw [Memory.cons_read h.2, Memory.read_cell]
        by_cases hj : j = k
        · simp [hj]
        · rw [if_neg hj, if_neg hj, if_neg (Ne.symm hj)]
      · rename_i hlt hne
        rw [Memory.read_cell, Memory.read_cell, ih h.2 (by omega)]
        by_cases hj : j = k
        · have hak : ¬a = j := fun e => hne (hj ▸ e.symm)
          rw [if_neg hak, if_pos hj, if_pos hj]
        · rw [if_neg hj, if_neg hj]

/-- What a bank reads as after a write. -/
theorem Memory.read_write {m : Memory} (h : m.wf = true) (k : Nat) (v : Byte) (j : Nat) :
    (m.write k v).read j = if j = k then v else m.read j :=
  Memory.write_readFrom h (Nat.zero_le k) v j

/-- Another key reads as before, canonical or not. -/
theorem Memory.read_write_other {m : Memory} {k j : Nat} (v : Byte) (hj : j ≠ k) : (m.write k v).read j = m.read j := by
  have hcons : ∀ m : Memory, (Memory.cons k v m).read j = m.read j := by
    intro m
    unfold Memory.cons
    split
    · rfl
    · rw [Memory.read_cell, if_neg (Ne.symm hj)]
  induction m with
  | nil => exact hcons []
  | cons c m ih =>
    obtain ⟨a, w⟩ := c
    unfold Memory.write
    split
    · exact hcons _
    · split
      · rename_i hka
        rw [hcons, Memory.read_cell, if_neg (fun e => hj (by omega))]
      · rw [Memory.read_cell, Memory.read_cell, ih]

theorem Memory.cons_below {n k : Nat} {v : Byte} {m : Memory} (hk : k < n) (h : m.below n = true) :
    (Memory.cons k v m).below n = true := by
  unfold Memory.cons
  split
  · exact h
  · simp only [Memory.below, List.all_cons, Bool.and_eq_true, decide_eq_true_eq] at h ⊢
    exact ⟨hk, h⟩

/-- A write below a bound keeps every key below it. -/
theorem Memory.write_below {n k : Nat} {v : Byte} {m : Memory} (hk : k < n) (h : m.below n = true) :
    (m.write k v).below n = true := by
  induction m with
  | nil => exact Memory.cons_below hk h
  | cons c m ih =>
    obtain ⟨a, w⟩ := c
    have h' := h
    simp only [Memory.below, List.all_cons, Bool.and_eq_true, decide_eq_true_eq] at h
    unfold Memory.write
    split
    · exact Memory.cons_below hk h'
    · split
      · exact Memory.cons_below hk h.2
      · simp only [Memory.below, List.all_cons, Bool.and_eq_true, decide_eq_true_eq] at ih ⊢
        exact ⟨h.1, ih h.2⟩

theorem Memory.ofBytes_wfFrom (k : Nat) (vs : List Byte) : Memory.wfFrom k (Memory.ofBytes k vs) = true := by
  induction vs generalizing k with
  | nil => rfl
  | cons v vs ih => exact Memory.cons_wf (Nat.le_refl k) (ih (k + 1))

/-- A bank made from bytes is canonical. -/
theorem Memory.ofBytes_wf (k : Nat) (vs : List Byte) : (Memory.ofBytes k vs).wf = true :=
  Memory.wfFrom_mono (Memory.ofBytes_wfFrom k vs) (Nat.zero_le k)

/-- A bank made from `n` bytes from key `k` on has no key from `k + n` on. -/
theorem Memory.ofBytes_below (k n : Nat) (vs : List Byte) (h : k + vs.length ≤ n) :
    (Memory.ofBytes k vs).below n = true := by
  induction vs generalizing k with
  | nil => rfl
  | cons v vs ih =>
    simp only [List.length_cons] at h
    exact Memory.cons_below (by omega) (ih (k + 1) (by omega))

/-- Two canonical banks that read the same everywhere are the same list. -/
theorem Memory.ext_wfFrom {lo : Nat} {m m' : Memory} (h : Memory.wfFrom lo m = true) (h' : Memory.wfFrom lo m' = true)
    (e : ∀ k, m.read k = m'.read k) : m = m' := by
  induction m generalizing lo m' with
  | nil =>
    cases m' with
    | nil => rfl
    | cons c m' =>
      obtain ⟨a, v⟩ := c
      simp only [Memory.wfFrom, Bool.and_eq_true, decide_eq_true_eq, bne_iff_ne] at h'
      have := e a
      rw [Memory.read_nil, Memory.read_cell, if_pos rfl] at this
      exact absurd this.symm h'.1.2
  | cons c m ih =>
    obtain ⟨a, v⟩ := c
    cases m' with
    | nil =>
      simp only [Memory.wfFrom, Bool.and_eq_true, decide_eq_true_eq, bne_iff_ne] at h
      have := e a
      rw [Memory.read_nil, Memory.read_cell, if_pos rfl] at this
      exact absurd this h.1.2
    | cons c' m' =>
      obtain ⟨a', v'⟩ := c'
      simp only [Memory.wfFrom, Bool.and_eq_true, decide_eq_true_eq, bne_iff_ne] at h h'
      have haa : a = a' := by
        rcases Nat.lt_trichotomy a a' with hlt | heq | hgt
        · have := e a
          rw [Memory.read_cell, if_pos rfl, Memory.read_cell, if_neg (by omega),
            Memory.read_of_lt h'.2 (by omega)] at this
          exact absurd this h.1.2
        · exact heq
        · have := e a'
          rw [Memory.read_cell, if_neg (by omega), Memory.read_cell, if_pos rfl,
            Memory.read_of_lt h.2 (by omega)] at this
          exact absurd this.symm h'.1.2
      subst haa
      have hv : v = v' := by
        have := e a
        rwa [Memory.read_cell, if_pos rfl, Memory.read_cell, if_pos rfl] at this
      subst hv
      have hm : m = m' := by
        refine ih h.2 h'.2 fun k => ?_
        have := e k
        rw [Memory.read_cell, Memory.read_cell] at this
        by_cases hk : a = k
        · rw [Memory.read_of_lt h.2 (by omega), Memory.read_of_lt h'.2 (by omega)]
        · rwa [if_neg hk, if_neg hk] at this
      rw [hm]

end Sys2Proof.Machine
end

