-- ==== Sys2Proof/Laws/State.lean ====
section
/-! SUPPORT. What each update does to each field of the state, one lemma a field, so that no proof unfolds a record
update; and the bytes of a word. -/

namespace Sys2Proof.Machine

/-! ### Bytes of a word -/

@[simp] theorem hiByte_append (h l : Byte) : hiByte (h ++ l) = h := by
  apply BitVec.eq_of_toNat_eq
  change (h ++ l : BitVec (8 + 8)).toNat >>> 8 % 256 = h.toNat
  rw [BitVec.toNat_append, ← Nat.shiftLeft_add_eq_or_of_lt l.isLt, Nat.shiftRight_eq_div_pow, Nat.shiftLeft_eq]
  have := h.isLt
  have := l.isLt
  omega

@[simp] theorem loByte_append (h l : Byte) : loByte (h ++ l) = l := by
  apply BitVec.eq_of_toNat_eq
  change (h ++ l : BitVec (8 + 8)).toNat >>> 0 % 256 = l.toNat
  rw [BitVec.toNat_append, ← Nat.shiftLeft_add_eq_or_of_lt l.isLt, Nat.shiftRight_zero, Nat.shiftLeft_eq]
  have := l.isLt
  omega

@[simp] theorem append_bytes (w : Word) : hiByte w ++ loByte w = w := by
  apply BitVec.eq_of_toNat_eq
  change (hiByte w ++ loByte w : BitVec (8 + 8)).toNat = w.toNat
  rw [BitVec.toNat_append, ← Nat.shiftLeft_add_eq_or_of_lt (loByte w).isLt, Nat.shiftLeft_eq]
  change (w.toNat >>> 8) % 256 * 256 + (w.toNat >>> 0) % 256 = w.toNat
  rw [Nat.shiftRight_eq_div_pow, Nat.shiftRight_zero]
  have := w.isLt
  omega

/-! ### ran -/

@[simp] theorem ran_a (s : State) (l m : Nat) (cs : List Cycle) : (ran s l m cs).a = s.a := rfl
@[simp] theorem ran_f (s : State) (l m : Nat) (cs : List Cycle) : (ran s l m cs).f = s.f := rfl
@[simp] theorem ran_b (s : State) (l m : Nat) (cs : List Cycle) : (ran s l m cs).b = s.b := rfl
@[simp] theorem ran_c (s : State) (l m : Nat) (cs : List Cycle) : (ran s l m cs).c = s.c := rfl
@[simp] theorem ran_d (s : State) (l m : Nat) (cs : List Cycle) : (ran s l m cs).d = s.d := rfl
@[simp] theorem ran_e (s : State) (l m : Nat) (cs : List Cycle) : (ran s l m cs).e = s.e := rfl
@[simp] theorem ran_h (s : State) (l m : Nat) (cs : List Cycle) : (ran s l m cs).h = s.h := rfl
@[simp] theorem ran_l (s : State) (l m : Nat) (cs : List Cycle) : (ran s l m cs).l = s.l := rfl
@[simp] theorem ran_a' (s : State) (l m : Nat) (cs : List Cycle) : (ran s l m cs).a' = s.a' := rfl
@[simp] theorem ran_f' (s : State) (l m : Nat) (cs : List Cycle) : (ran s l m cs).f' = s.f' := rfl
@[simp] theorem ran_b' (s : State) (l m : Nat) (cs : List Cycle) : (ran s l m cs).b' = s.b' := rfl
@[simp] theorem ran_c' (s : State) (l m : Nat) (cs : List Cycle) : (ran s l m cs).c' = s.c' := rfl
@[simp] theorem ran_d' (s : State) (l m : Nat) (cs : List Cycle) : (ran s l m cs).d' = s.d' := rfl
@[simp] theorem ran_e' (s : State) (l m : Nat) (cs : List Cycle) : (ran s l m cs).e' = s.e' := rfl
@[simp] theorem ran_h' (s : State) (l m : Nat) (cs : List Cycle) : (ran s l m cs).h' = s.h' := rfl
@[simp] theorem ran_l' (s : State) (l m : Nat) (cs : List Cycle) : (ran s l m cs).l' = s.l' := rfl
@[simp] theorem ran_ix (s : State) (l m : Nat) (cs : List Cycle) : (ran s l m cs).ix = s.ix := rfl
@[simp] theorem ran_iy (s : State) (l m : Nat) (cs : List Cycle) : (ran s l m cs).iy = s.iy := rfl
@[simp] theorem ran_sp (s : State) (l m : Nat) (cs : List Cycle) : (ran s l m cs).sp = s.sp := rfl
@[simp] theorem ran_pc (s : State) (l m : Nat) (cs : List Cycle) : (ran s l m cs).pc = s.pc + BitVec.ofNat 16 l := rfl
@[simp] theorem ran_i (s : State) (l m : Nat) (cs : List Cycle) : (ran s l m cs).i = s.i := rfl
@[simp] theorem ran_r (s : State) (l m : Nat) (cs : List Cycle) : (ran s l m cs).r = refreshed s.r m := rfl
@[simp] theorem ran_iff1 (s : State) (l m : Nat) (cs : List Cycle) : (ran s l m cs).iff1 = s.iff1 := rfl
@[simp] theorem ran_iff2 (s : State) (l m : Nat) (cs : List Cycle) : (ran s l m cs).iff2 = s.iff2 := rfl
@[simp] theorem ran_im (s : State) (l m : Nat) (cs : List Cycle) : (ran s l m cs).im = s.im := rfl
@[simp] theorem ran_halted (s : State) (l m : Nat) (cs : List Cycle) : (ran s l m cs).halted = s.halted := rfl
@[simp] theorem ran_memptr (s : State) (l m : Nat) (cs : List Cycle) : (ran s l m cs).memptr = s.memptr := rfl
@[simp] theorem ran_inhibit (s : State) (l m : Nat) (cs : List Cycle) : (ran s l m cs).inhibit = s.inhibit := rfl
@[simp] theorem ran_nmiPending (s : State) (l m : Nat) (cs : List Cycle) :
    (ran s l m cs).nmiPending = s.nmiPending := rfl
@[simp] theorem ran_intState (s : State) (l m : Nat) (cs : List Cycle) : (ran s l m cs).intState = s.intState := rfl
@[simp] theorem ran_frameT (s : State) (l m : Nat) (cs : List Cycle) :
    (ran s l m cs).frameT = timeAfter s.cfg s.paging s.frameT cs := rfl
@[simp] theorem ran_rom (s : State) (l m : Nat) (cs : List Cycle) : (ran s l m cs).rom = s.rom := rfl
@[simp] theorem ran_ram (s : State) (l m : Nat) (cs : List Cycle) : (ran s l m cs).ram = s.ram := rfl
@[simp] theorem ran_paging (s : State) (l m : Nat) (cs : List Cycle) : (ran s l m cs).paging = s.paging := rfl
@[simp] theorem ran_border (s : State) (l m : Nat) (cs : List Cycle) : (ran s l m cs).border = s.border := rfl
@[simp] theorem ran_beeper (s : State) (l m : Nat) (cs : List Cycle) : (ran s l m cs).beeper = s.beeper := rfl
@[simp] theorem ran_mic (s : State) (l m : Nat) (cs : List Cycle) : (ran s l m cs).mic = s.mic := rfl
@[simp] theorem ran_keyrow (s : State) (l m : Nat) (cs : List Cycle) : (ran s l m cs).keyrow = s.keyrow := rfl
@[simp] theorem ran_tapeIn (s : State) (l m : Nat) (cs : List Cycle) : (ran s l m cs).tapeIn = s.tapeIn := rfl
@[simp] theorem ran_aySel (s : State) (l m : Nat) (cs : List Cycle) : (ran s l m cs).aySel = s.aySel := rfl
@[simp] theorem ran_ayReg (s : State) (l m : Nat) (cs : List Cycle) : (ran s l m cs).ayReg = s.ayReg := rfl
@[simp] theorem ran_log (s : State) (l m : Nat) (cs : List Cycle) : (ran s l m cs).log = s.log := rfl
@[simp] theorem ran_cfg (s : State) (l m : Nat) (cs : List Cycle) : (ran s l m cs).cfg = s.cfg := rfl
@[simp] theorem ran_drive (s : State) (l m : Nat) (cs : List Cycle) : (ran s l m cs).drive = s.drive := rfl

/-! ### tick -/

@[simp] theorem tick_a (n : Nat) (s : State) : (tick n s).a = s.a := rfl
@[simp] theorem tick_f (n : Nat) (s : State) : (tick n s).f = s.f := rfl
@[simp] theorem tick_b (n : Nat) (s : State) : (tick n s).b = s.b := rfl
@[simp] theorem tick_c (n : Nat) (s : State) : (tick n s).c = s.c := rfl
@[simp] theorem tick_d (n : Nat) (s : State) : (tick n s).d = s.d := rfl
@[simp] theorem tick_e (n : Nat) (s : State) : (tick n s).e = s.e := rfl
@[simp] theorem tick_h (n : Nat) (s : State) : (tick n s).h = s.h := rfl
@[simp] theorem tick_l (n : Nat) (s : State) : (tick n s).l = s.l := rfl
@[simp] theorem tick_a' (n : Nat) (s : State) : (tick n s).a' = s.a' := rfl
@[simp] theorem tick_f' (n : Nat) (s : State) : (tick n s).f' = s.f' := rfl
@[simp] theorem tick_b' (n : Nat) (s : State) : (tick n s).b' = s.b' := rfl
@[simp] theorem tick_c' (n : Nat) (s : State) : (tick n s).c' = s.c' := rfl
@[simp] theorem tick_d' (n : Nat) (s : State) : (tick n s).d' = s.d' := rfl
@[simp] theorem tick_e' (n : Nat) (s : State) : (tick n s).e' = s.e' := rfl
@[simp] theorem tick_h' (n : Nat) (s : State) : (tick n s).h' = s.h' := rfl
@[simp] theorem tick_l' (n : Nat) (s : State) : (tick n s).l' = s.l' := rfl
@[simp] theorem tick_ix (n : Nat) (s : State) : (tick n s).ix = s.ix := rfl
@[simp] theorem tick_iy (n : Nat) (s : State) : (tick n s).iy = s.iy := rfl
@[simp] theorem tick_sp (n : Nat) (s : State) : (tick n s).sp = s.sp := rfl
@[simp] theorem tick_pc (n : Nat) (s : State) : (tick n s).pc = s.pc := rfl
@[simp] theorem tick_i (n : Nat) (s : State) : (tick n s).i = s.i := rfl
@[simp] theorem tick_r (n : Nat) (s : State) : (tick n s).r = s.r := rfl
@[simp] theorem tick_iff1 (n : Nat) (s : State) : (tick n s).iff1 = s.iff1 := rfl
@[simp] theorem tick_iff2 (n : Nat) (s : State) : (tick n s).iff2 = s.iff2 := rfl
@[simp] theorem tick_im (n : Nat) (s : State) : (tick n s).im = s.im := rfl
@[simp] theorem tick_halted (n : Nat) (s : State) : (tick n s).halted = s.halted := rfl
@[simp] theorem tick_memptr (n : Nat) (s : State) : (tick n s).memptr = s.memptr := rfl
@[simp] theorem tick_inhibit (n : Nat) (s : State) : (tick n s).inhibit = s.inhibit := rfl
@[simp] theorem tick_nmiPending (n : Nat) (s : State) : (tick n s).nmiPending = s.nmiPending := rfl
@[simp] theorem tick_intState (n : Nat) (s : State) : (tick n s).intState = s.intState := rfl
@[simp] theorem tick_frameT (n : Nat) (s : State) : (tick n s).frameT = s.frameT + n := rfl
@[simp] theorem tick_rom (n : Nat) (s : State) : (tick n s).rom = s.rom := rfl
@[simp] theorem tick_ram (n : Nat) (s : State) : (tick n s).ram = s.ram := rfl
@[simp] theorem tick_paging (n : Nat) (s : State) : (tick n s).paging = s.paging := rfl
@[simp] theorem tick_border (n : Nat) (s : State) : (tick n s).border = s.border := rfl
@[simp] theorem tick_beeper (n : Nat) (s : State) : (tick n s).beeper = s.beeper := rfl
@[simp] theorem tick_mic (n : Nat) (s : State) : (tick n s).mic = s.mic := rfl
@[simp] theorem tick_keyrow (n : Nat) (s : State) : (tick n s).keyrow = s.keyrow := rfl
@[simp] theorem tick_tapeIn (n : Nat) (s : State) : (tick n s).tapeIn = s.tapeIn := rfl
@[simp] theorem tick_aySel (n : Nat) (s : State) : (tick n s).aySel = s.aySel := rfl
@[simp] theorem tick_ayReg (n : Nat) (s : State) : (tick n s).ayReg = s.ayReg := rfl
@[simp] theorem tick_log (n : Nat) (s : State) : (tick n s).log = s.log := rfl
@[simp] theorem tick_cfg (n : Nat) (s : State) : (tick n s).cfg = s.cfg := rfl
@[simp] theorem tick_drive (n : Nat) (s : State) : (tick n s).drive = s.drive := rfl

/-! ### setBc, setDe, setHl, setAf, setSp -/

@[simp] theorem setBc_a (v : Word) (s : State) : (setBc v s).a = s.a := rfl
@[simp] theorem setBc_f (v : Word) (s : State) : (setBc v s).f = s.f := rfl
@[simp] theorem setBc_b (v : Word) (s : State) : (setBc v s).b = hiByte v := rfl
@[simp] theorem setBc_c (v : Word) (s : State) : (setBc v s).c = loByte v := rfl
@[simp] theorem setBc_d (v : Word) (s : State) : (setBc v s).d = s.d := rfl
@[simp] theorem setBc_e (v : Word) (s : State) : (setBc v s).e = s.e := rfl
@[simp] theorem setBc_h (v : Word) (s : State) : (setBc v s).h = s.h := rfl
@[simp] theorem setBc_l (v : Word) (s : State) : (setBc v s).l = s.l := rfl
@[simp] theorem setBc_a' (v : Word) (s : State) : (setBc v s).a' = s.a' := rfl
@[simp] theorem setBc_f' (v : Word) (s : State) : (setBc v s).f' = s.f' := rfl
@[simp] theorem setBc_b' (v : Word) (s : State) : (setBc v s).b' = s.b' := rfl
@[simp] theorem setBc_c' (v : Word) (s : State) : (setBc v s).c' = s.c' := rfl
@[simp] theorem setBc_d' (v : Word) (s : State) : (setBc v s).d' = s.d' := rfl
@[simp] theorem setBc_e' (v : Word) (s : State) : (setBc v s).e' = s.e' := rfl
@[simp] theorem setBc_h' (v : Word) (s : State) : (setBc v s).h' = s.h' := rfl
@[simp] theorem setBc_l' (v : Word) (s : State) : (setBc v s).l' = s.l' := rfl
@[simp] theorem setBc_ix (v : Word) (s : State) : (setBc v s).ix = s.ix := rfl
@[simp] theorem setBc_iy (v : Word) (s : State) : (setBc v s).iy = s.iy := rfl
@[simp] theorem setBc_sp (v : Word) (s : State) : (setBc v s).sp = s.sp := rfl
@[simp] theorem setBc_pc (v : Word) (s : State) : (setBc v s).pc = s.pc := rfl
@[simp] theorem setBc_i (v : Word) (s : State) : (setBc v s).i = s.i := rfl
@[simp] theorem setBc_r (v : Word) (s : State) : (setBc v s).r = s.r := rfl
@[simp] theorem setBc_iff1 (v : Word) (s : State) : (setBc v s).iff1 = s.iff1 := rfl
@[simp] theorem setBc_iff2 (v : Word) (s : State) : (setBc v s).iff2 = s.iff2 := rfl
@[simp] theorem setBc_im (v : Word) (s : State) : (setBc v s).im = s.im := rfl
@[simp] theorem setBc_halted (v : Word) (s : State) : (setBc v s).halted = s.halted := rfl
@[simp] theorem setBc_memptr (v : Word) (s : State) : (setBc v s).memptr = s.memptr := rfl
@[simp] theorem setBc_inhibit (v : Word) (s : State) : (setBc v s).inhibit = s.inhibit := rfl
@[simp] theorem setBc_nmiPending (v : Word) (s : State) : (setBc v s).nmiPending = s.nmiPending := rfl
@[simp] theorem setBc_intState (v : Word) (s : State) : (setBc v s).intState = s.intState := rfl
@[simp] theorem setBc_frameT (v : Word) (s : State) : (setBc v s).frameT = s.frameT := rfl
@[simp] theorem setBc_rom (v : Word) (s : State) : (setBc v s).rom = s.rom := rfl
@[simp] theorem setBc_ram (v : Word) (s : State) : (setBc v s).ram = s.ram := rfl
@[simp] theorem setBc_paging (v : Word) (s : State) : (setBc v s).paging = s.paging := rfl
@[simp] theorem setBc_border (v : Word) (s : State) : (setBc v s).border = s.border := rfl
@[simp] theorem setBc_beeper (v : Word) (s : State) : (setBc v s).beeper = s.beeper := rfl
@[simp] theorem setBc_mic (v : Word) (s : State) : (setBc v s).mic = s.mic := rfl
@[simp] theorem setBc_keyrow (v : Word) (s : State) : (setBc v s).keyrow = s.keyrow := rfl
@[simp] theorem setBc_tapeIn (v : Word) (s : State) : (setBc v s).tapeIn = s.tapeIn := rfl
@[simp] theorem setBc_aySel (v : Word) (s : State) : (setBc v s).aySel = s.aySel := rfl
@[simp] theorem setBc_ayReg (v : Word) (s : State) : (setBc v s).ayReg = s.ayReg := rfl
@[simp] theorem setBc_log (v : Word) (s : State) : (setBc v s).log = s.log := rfl
@[simp] theorem setBc_cfg (v : Word) (s : State) : (setBc v s).cfg = s.cfg := rfl
@[simp] theorem setBc_drive (v : Word) (s : State) : (setBc v s).drive = s.drive := rfl

@[simp] theorem setDe_a (v : Word) (s : State) : (setDe v s).a = s.a := rfl
@[simp] theorem setDe_f (v : Word) (s : State) : (setDe v s).f = s.f := rfl
@[simp] theorem setDe_b (v : Word) (s : State) : (setDe v s).b = s.b := rfl
@[simp] theorem setDe_c (v : Word) (s : State) : (setDe v s).c = s.c := rfl
@[simp] theorem setDe_d (v : Word) (s : State) : (setDe v s).d = hiByte v := rfl
@[simp] theorem setDe_e (v : Word) (s : State) : (setDe v s).e = loByte v := rfl
@[simp] theorem setDe_h (v : Word) (s : State) : (setDe v s).h = s.h := rfl
@[simp] theorem setDe_l (v : Word) (s : State) : (setDe v s).l = s.l := rfl
@[simp] theorem setDe_a' (v : Word) (s : State) : (setDe v s).a' = s.a' := rfl
@[simp] theorem setDe_f' (v : Word) (s : State) : (setDe v s).f' = s.f' := rfl
@[simp] theorem setDe_b' (v : Word) (s : State) : (setDe v s).b' = s.b' := rfl
@[simp] theorem setDe_c' (v : Word) (s : State) : (setDe v s).c' = s.c' := rfl
@[simp] theorem setDe_d' (v : Word) (s : State) : (setDe v s).d' = s.d' := rfl
@[simp] theorem setDe_e' (v : Word) (s : State) : (setDe v s).e' = s.e' := rfl
@[simp] theorem setDe_h' (v : Word) (s : State) : (setDe v s).h' = s.h' := rfl
@[simp] theorem setDe_l' (v : Word) (s : State) : (setDe v s).l' = s.l' := rfl
@[simp] theorem setDe_ix (v : Word) (s : State) : (setDe v s).ix = s.ix := rfl
@[simp] theorem setDe_iy (v : Word) (s : State) : (setDe v s).iy = s.iy := rfl
@[simp] theorem setDe_sp (v : Word) (s : State) : (setDe v s).sp = s.sp := rfl
@[simp] theorem setDe_pc (v : Word) (s : State) : (setDe v s).pc = s.pc := rfl
@[simp] theorem setDe_i (v : Word) (s : State) : (setDe v s).i = s.i := rfl
@[simp] theorem setDe_r (v : Word) (s : State) : (setDe v s).r = s.r := rfl
@[simp] theorem setDe_iff1 (v : Word) (s : State) : (setDe v s).iff1 = s.iff1 := rfl
@[simp] theorem setDe_iff2 (v : Word) (s : State) : (setDe v s).iff2 = s.iff2 := rfl
@[simp] theorem setDe_im (v : Word) (s : State) : (setDe v s).im = s.im := rfl
@[simp] theorem setDe_halted (v : Word) (s : State) : (setDe v s).halted = s.halted := rfl
@[simp] theorem setDe_memptr (v : Word) (s : State) : (setDe v s).memptr = s.memptr := rfl
@[simp] theorem setDe_inhibit (v : Word) (s : State) : (setDe v s).inhibit = s.inhibit := rfl
@[simp] theorem setDe_nmiPending (v : Word) (s : State) : (setDe v s).nmiPending = s.nmiPending := rfl
@[simp] theorem setDe_intState (v : Word) (s : State) : (setDe v s).intState = s.intState := rfl
@[simp] theorem setDe_frameT (v : Word) (s : State) : (setDe v s).frameT = s.frameT := rfl
@[simp] theorem setDe_rom (v : Word) (s : State) : (setDe v s).rom = s.rom := rfl
@[simp] theorem setDe_ram (v : Word) (s : State) : (setDe v s).ram = s.ram := rfl
@[simp] theorem setDe_paging (v : Word) (s : State) : (setDe v s).paging = s.paging := rfl
@[simp] theorem setDe_border (v : Word) (s : State) : (setDe v s).border = s.border := rfl
@[simp] theorem setDe_beeper (v : Word) (s : State) : (setDe v s).beeper = s.beeper := rfl
@[simp] theorem setDe_mic (v : Word) (s : State) : (setDe v s).mic = s.mic := rfl
@[simp] theorem setDe_keyrow (v : Word) (s : State) : (setDe v s).keyrow = s.keyrow := rfl
@[simp] theorem setDe_tapeIn (v : Word) (s : State) : (setDe v s).tapeIn = s.tapeIn := rfl
@[simp] theorem setDe_aySel (v : Word) (s : State) : (setDe v s).aySel = s.aySel := rfl
@[simp] theorem setDe_ayReg (v : Word) (s : State) : (setDe v s).ayReg = s.ayReg := rfl
@[simp] theorem setDe_log (v : Word) (s : State) : (setDe v s).log = s.log := rfl
@[simp] theorem setDe_cfg (v : Word) (s : State) : (setDe v s).cfg = s.cfg := rfl
@[simp] theorem setDe_drive (v : Word) (s : State) : (setDe v s).drive = s.drive := rfl

@[simp] theorem setHl_a (v : Word) (s : State) : (setHl v s).a = s.a := rfl
@[simp] theorem setHl_f (v : Word) (s : State) : (setHl v s).f = s.f := rfl
@[simp] theorem setHl_b (v : Word) (s : State) : (setHl v s).b = s.b := rfl
@[simp] theorem setHl_c (v : Word) (s : State) : (setHl v s).c = s.c := rfl
@[simp] theorem setHl_d (v : Word) (s : State) : (setHl v s).d = s.d := rfl
@[simp] theorem setHl_e (v : Word) (s : State) : (setHl v s).e = s.e := rfl
@[simp] theorem setHl_h (v : Word) (s : State) : (setHl v s).h = hiByte v := rfl
@[simp] theorem setHl_l (v : Word) (s : State) : (setHl v s).l = loByte v := rfl
@[simp] theorem setHl_a' (v : Word) (s : State) : (setHl v s).a' = s.a' := rfl
@[simp] theorem setHl_f' (v : Word) (s : State) : (setHl v s).f' = s.f' := rfl
@[simp] theorem setHl_b' (v : Word) (s : State) : (setHl v s).b' = s.b' := rfl
@[simp] theorem setHl_c' (v : Word) (s : State) : (setHl v s).c' = s.c' := rfl
@[simp] theorem setHl_d' (v : Word) (s : State) : (setHl v s).d' = s.d' := rfl
@[simp] theorem setHl_e' (v : Word) (s : State) : (setHl v s).e' = s.e' := rfl
@[simp] theorem setHl_h' (v : Word) (s : State) : (setHl v s).h' = s.h' := rfl
@[simp] theorem setHl_l' (v : Word) (s : State) : (setHl v s).l' = s.l' := rfl
@[simp] theorem setHl_ix (v : Word) (s : State) : (setHl v s).ix = s.ix := rfl
@[simp] theorem setHl_iy (v : Word) (s : State) : (setHl v s).iy = s.iy := rfl
@[simp] theorem setHl_sp (v : Word) (s : State) : (setHl v s).sp = s.sp := rfl
@[simp] theorem setHl_pc (v : Word) (s : State) : (setHl v s).pc = s.pc := rfl
@[simp] theorem setHl_i (v : Word) (s : State) : (setHl v s).i = s.i := rfl
@[simp] theorem setHl_r (v : Word) (s : State) : (setHl v s).r = s.r := rfl
@[simp] theorem setHl_iff1 (v : Word) (s : State) : (setHl v s).iff1 = s.iff1 := rfl
@[simp] theorem setHl_iff2 (v : Word) (s : State) : (setHl v s).iff2 = s.iff2 := rfl
@[simp] theorem setHl_im (v : Word) (s : State) : (setHl v s).im = s.im := rfl
@[simp] theorem setHl_halted (v : Word) (s : State) : (setHl v s).halted = s.halted := rfl
@[simp] theorem setHl_memptr (v : Word) (s : State) : (setHl v s).memptr = s.memptr := rfl
@[simp] theorem setHl_inhibit (v : Word) (s : State) : (setHl v s).inhibit = s.inhibit := rfl
@[simp] theorem setHl_nmiPending (v : Word) (s : State) : (setHl v s).nmiPending = s.nmiPending := rfl
@[simp] theorem setHl_intState (v : Word) (s : State) : (setHl v s).intState = s.intState := rfl
@[simp] theorem setHl_frameT (v : Word) (s : State) : (setHl v s).frameT = s.frameT := rfl
@[simp] theorem setHl_rom (v : Word) (s : State) : (setHl v s).rom = s.rom := rfl
@[simp] theorem setHl_ram (v : Word) (s : State) : (setHl v s).ram = s.ram := rfl
@[simp] theorem setHl_paging (v : Word) (s : State) : (setHl v s).paging = s.paging := rfl
@[simp] theorem setHl_border (v : Word) (s : State) : (setHl v s).border = s.border := rfl
@[simp] theorem setHl_beeper (v : Word) (s : State) : (setHl v s).beeper = s.beeper := rfl
@[simp] theorem setHl_mic (v : Word) (s : State) : (setHl v s).mic = s.mic := rfl
@[simp] theorem setHl_keyrow (v : Word) (s : State) : (setHl v s).keyrow = s.keyrow := rfl
@[simp] theorem setHl_tapeIn (v : Word) (s : State) : (setHl v s).tapeIn = s.tapeIn := rfl
@[simp] theorem setHl_aySel (v : Word) (s : State) : (setHl v s).aySel = s.aySel := rfl
@[simp] theorem setHl_ayReg (v : Word) (s : State) : (setHl v s).ayReg = s.ayReg := rfl
@[simp] theorem setHl_log (v : Word) (s : State) : (setHl v s).log = s.log := rfl
@[simp] theorem setHl_cfg (v : Word) (s : State) : (setHl v s).cfg = s.cfg := rfl
@[simp] theorem setHl_drive (v : Word) (s : State) : (setHl v s).drive = s.drive := rfl

@[simp] theorem setAf_a (v : Word) (s : State) : (setAf v s).a = hiByte v := rfl
@[simp] theorem setAf_f (v : Word) (s : State) : (setAf v s).f = loByte v := rfl
@[simp] theorem setAf_b (v : Word) (s : State) : (setAf v s).b = s.b := rfl
@[simp] theorem setAf_c (v : Word) (s : State) : (setAf v s).c = s.c := rfl
@[simp] theorem setAf_d (v : Word) (s : State) : (setAf v s).d = s.d := rfl
@[simp] theorem setAf_e (v : Word) (s : State) : (setAf v s).e = s.e := rfl
@[simp] theorem setAf_h (v : Word) (s : State) : (setAf v s).h = s.h := rfl
@[simp] theorem setAf_l (v : Word) (s : State) : (setAf v s).l = s.l := rfl
@[simp] theorem setAf_a' (v : Word) (s : State) : (setAf v s).a' = s.a' := rfl
@[simp] theorem setAf_f' (v : Word) (s : State) : (setAf v s).f' = s.f' := rfl
@[simp] theorem setAf_b' (v : Word) (s : State) : (setAf v s).b' = s.b' := rfl
@[simp] theorem setAf_c' (v : Word) (s : State) : (setAf v s).c' = s.c' := rfl
@[simp] theorem setAf_d' (v : Word) (s : State) : (setAf v s).d' = s.d' := rfl
@[simp] theorem setAf_e' (v : Word) (s : State) : (setAf v s).e' = s.e' := rfl
@[simp] theorem setAf_h' (v : Word) (s : State) : (setAf v s).h' = s.h' := rfl
@[simp] theorem setAf_l' (v : Word) (s : State) : (setAf v s).l' = s.l' := rfl
@[simp] theorem setAf_ix (v : Word) (s : State) : (setAf v s).ix = s.ix := rfl
@[simp] theorem setAf_iy (v : Word) (s : State) : (setAf v s).iy = s.iy := rfl
@[simp] theorem setAf_sp (v : Word) (s : State) : (setAf v s).sp = s.sp := rfl
@[simp] theorem setAf_pc (v : Word) (s : State) : (setAf v s).pc = s.pc := rfl
@[simp] theorem setAf_i (v : Word) (s : State) : (setAf v s).i = s.i := rfl
@[simp] theorem setAf_r (v : Word) (s : State) : (setAf v s).r = s.r := rfl
@[simp] theorem setAf_iff1 (v : Word) (s : State) : (setAf v s).iff1 = s.iff1 := rfl
@[simp] theorem setAf_iff2 (v : Word) (s : State) : (setAf v s).iff2 = s.iff2 := rfl
@[simp] theorem setAf_im (v : Word) (s : State) : (setAf v s).im = s.im := rfl
@[simp] theorem setAf_halted (v : Word) (s : State) : (setAf v s).halted = s.halted := rfl
@[simp] theorem setAf_memptr (v : Word) (s : State) : (setAf v s).memptr = s.memptr := rfl
@[simp] theorem setAf_inhibit (v : Word) (s : State) : (setAf v s).inhibit = s.inhibit := rfl
@[simp] theorem setAf_nmiPending (v : Word) (s : State) : (setAf v s).nmiPending = s.nmiPending := rfl
@[simp] theorem setAf_intState (v : Word) (s : State) : (setAf v s).intState = s.intState := rfl
@[simp] theorem setAf_frameT (v : Word) (s : State) : (setAf v s).frameT = s.frameT := rfl
@[simp] theorem setAf_rom (v : Word) (s : State) : (setAf v s).rom = s.rom := rfl
@[simp] theorem setAf_ram (v : Word) (s : State) : (setAf v s).ram = s.ram := rfl
@[simp] theorem setAf_paging (v : Word) (s : State) : (setAf v s).paging = s.paging := rfl
@[simp] theorem setAf_border (v : Word) (s : State) : (setAf v s).border = s.border := rfl
@[simp] theorem setAf_beeper (v : Word) (s : State) : (setAf v s).beeper = s.beeper := rfl
@[simp] theorem setAf_mic (v : Word) (s : State) : (setAf v s).mic = s.mic := rfl
@[simp] theorem setAf_keyrow (v : Word) (s : State) : (setAf v s).keyrow = s.keyrow := rfl
@[simp] theorem setAf_tapeIn (v : Word) (s : State) : (setAf v s).tapeIn = s.tapeIn := rfl
@[simp] theorem setAf_aySel (v : Word) (s : State) : (setAf v s).aySel = s.aySel := rfl
@[simp] theorem setAf_ayReg (v : Word) (s : State) : (setAf v s).ayReg = s.ayReg := rfl
@[simp] theorem setAf_log (v : Word) (s : State) : (setAf v s).log = s.log := rfl
@[simp] theorem setAf_cfg (v : Word) (s : State) : (setAf v s).cfg = s.cfg := rfl
@[simp] theorem setAf_drive (v : Word) (s : State) : (setAf v s).drive = s.drive := rfl

@[simp] theorem setSp_a (v : Word) (s : State) : (setSp v s).a = s.a := rfl
@[simp] theorem setSp_f (v : Word) (s : State) : (setSp v s).f = s.f := rfl
@[simp] theorem setSp_b (v : Word) (s : State) : (setSp v s).b = s.b := rfl
@[simp] theorem setSp_c (v : Word) (s : State) : (setSp v s).c = s.c := rfl
@[simp] theorem setSp_d (v : Word) (s : State) : (setSp v s).d = s.d := rfl
@[simp] theorem setSp_e (v : Word) (s : State) : (setSp v s).e = s.e := rfl
@[simp] theorem setSp_h (v : Word) (s : State) : (setSp v s).h = s.h := rfl
@[simp] theorem setSp_l (v : Word) (s : State) : (setSp v s).l = s.l := rfl
@[simp] theorem setSp_a' (v : Word) (s : State) : (setSp v s).a' = s.a' := rfl
@[simp] theorem setSp_f' (v : Word) (s : State) : (setSp v s).f' = s.f' := rfl
@[simp] theorem setSp_b' (v : Word) (s : State) : (setSp v s).b' = s.b' := rfl
@[simp] theorem setSp_c' (v : Word) (s : State) : (setSp v s).c' = s.c' := rfl
@[simp] theorem setSp_d' (v : Word) (s : State) : (setSp v s).d' = s.d' := rfl
@[simp] theorem setSp_e' (v : Word) (s : State) : (setSp v s).e' = s.e' := rfl
@[simp] theorem setSp_h' (v : Word) (s : State) : (setSp v s).h' = s.h' := rfl
@[simp] theorem setSp_l' (v : Word) (s : State) : (setSp v s).l' = s.l' := rfl
@[simp] theorem setSp_ix (v : Word) (s : State) : (setSp v s).ix = s.ix := rfl
@[simp] theorem setSp_iy (v : Word) (s : State) : (setSp v s).iy = s.iy := rfl
@[simp] theorem setSp_sp (v : Word) (s : State) : (setSp v s).sp = v := rfl
@[simp] theorem setSp_pc (v : Word) (s : State) : (setSp v s).pc = s.pc := rfl
@[simp] theorem setSp_i (v : Word) (s : State) : (setSp v s).i = s.i := rfl
@[simp] theorem setSp_r (v : Word) (s : State) : (setSp v s).r = s.r := rfl
@[simp] theorem setSp_iff1 (v : Word) (s : State) : (setSp v s).iff1 = s.iff1 := rfl
@[simp] theorem setSp_iff2 (v : Word) (s : State) : (setSp v s).iff2 = s.iff2 := rfl
@[simp] theorem setSp_im (v : Word) (s : State) : (setSp v s).im = s.im := rfl
@[simp] theorem setSp_halted (v : Word) (s : State) : (setSp v s).halted = s.halted := rfl
@[simp] theorem setSp_memptr (v : Word) (s : State) : (setSp v s).memptr = s.memptr := rfl
@[simp] theorem setSp_inhibit (v : Word) (s : State) : (setSp v s).inhibit = s.inhibit := rfl
@[simp] theorem setSp_nmiPending (v : Word) (s : State) : (setSp v s).nmiPending = s.nmiPending := rfl
@[simp] theorem setSp_intState (v : Word) (s : State) : (setSp v s).intState = s.intState := rfl
@[simp] theorem setSp_frameT (v : Word) (s : State) : (setSp v s).frameT = s.frameT := rfl
@[simp] theorem setSp_rom (v : Word) (s : State) : (setSp v s).rom = s.rom := rfl
@[simp] theorem setSp_ram (v : Word) (s : State) : (setSp v s).ram = s.ram := rfl
@[simp] theorem setSp_paging (v : Word) (s : State) : (setSp v s).paging = s.paging := rfl
@[simp] theorem setSp_border (v : Word) (s : State) : (setSp v s).border = s.border := rfl
@[simp] theorem setSp_beeper (v : Word) (s : State) : (setSp v s).beeper = s.beeper := rfl
@[simp] theorem setSp_mic (v : Word) (s : State) : (setSp v s).mic = s.mic := rfl
@[simp] theorem setSp_keyrow (v : Word) (s : State) : (setSp v s).keyrow = s.keyrow := rfl
@[simp] theorem setSp_tapeIn (v : Word) (s : State) : (setSp v s).tapeIn = s.tapeIn := rfl
@[simp] theorem setSp_aySel (v : Word) (s : State) : (setSp v s).aySel = s.aySel := rfl
@[simp] theorem setSp_ayReg (v : Word) (s : State) : (setSp v s).ayReg = s.ayReg := rfl
@[simp] theorem setSp_log (v : Word) (s : State) : (setSp v s).log = s.log := rfl
@[simp] theorem setSp_cfg (v : Word) (s : State) : (setSp v s).cfg = s.cfg := rfl
@[simp] theorem setSp_drive (v : Word) (s : State) : (setSp v s).drive = s.drive := rfl

/-! ### jumpTo -/

@[simp] theorem jumpTo_a (v : Word) (s : State) : (jumpTo v s).a = s.a := rfl
@[simp] theorem jumpTo_f (v : Word) (s : State) : (jumpTo v s).f = s.f := rfl
@[simp] theorem jumpTo_b (v : Word) (s : State) : (jumpTo v s).b = s.b := rfl
@[simp] theorem jumpTo_c (v : Word) (s : State) : (jumpTo v s).c = s.c := rfl
@[simp] theorem jumpTo_d (v : Word) (s : State) : (jumpTo v s).d = s.d := rfl
@[simp] theorem jumpTo_e (v : Word) (s : State) : (jumpTo v s).e = s.e := rfl
@[simp] theorem jumpTo_h (v : Word) (s : State) : (jumpTo v s).h = s.h := rfl
@[simp] theorem jumpTo_l (v : Word) (s : State) : (jumpTo v s).l = s.l := rfl
@[simp] theorem jumpTo_a' (v : Word) (s : State) : (jumpTo v s).a' = s.a' := rfl
@[simp] theorem jumpTo_f' (v : Word) (s : State) : (jumpTo v s).f' = s.f' := rfl
@[simp] theorem jumpTo_b' (v : Word) (s : State) : (jumpTo v s).b' = s.b' := rfl
@[simp] theorem jumpTo_c' (v : Word) (s : State) : (jumpTo v s).c' = s.c' := rfl
@[simp] theorem jumpTo_d' (v : Word) (s : State) : (jumpTo v s).d' = s.d' := rfl
@[simp] theorem jumpTo_e' (v : Word) (s : State) : (jumpTo v s).e' = s.e' := rfl
@[simp] theorem jumpTo_h' (v : Word) (s : State) : (jumpTo v s).h' = s.h' := rfl
@[simp] theorem jumpTo_l' (v : Word) (s : State) : (jumpTo v s).l' = s.l' := rfl
@[simp] theorem jumpTo_ix (v : Word) (s : State) : (jumpTo v s).ix = s.ix := rfl
@[simp] theorem jumpTo_iy (v : Word) (s : State) : (jumpTo v s).iy = s.iy := rfl
@[simp] theorem jumpTo_sp (v : Word) (s : State) : (jumpTo v s).sp = s.sp := rfl
@[simp] theorem jumpTo_pc (v : Word) (s : State) : (jumpTo v s).pc = v := rfl
@[simp] theorem jumpTo_i (v : Word) (s : State) : (jumpTo v s).i = s.i := rfl
@[simp] theorem jumpTo_r (v : Word) (s : State) : (jumpTo v s).r = s.r := rfl
@[simp] theorem jumpTo_iff1 (v : Word) (s : State) : (jumpTo v s).iff1 = s.iff1 := rfl
@[simp] theorem jumpTo_iff2 (v : Word) (s : State) : (jumpTo v s).iff2 = s.iff2 := rfl
@[simp] theorem jumpTo_im (v : Word) (s : State) : (jumpTo v s).im = s.im := rfl
@[simp] theorem jumpTo_halted (v : Word) (s : State) : (jumpTo v s).halted = s.halted := rfl
@[simp] theorem jumpTo_memptr (v : Word) (s : State) : (jumpTo v s).memptr = v := rfl
@[simp] theorem jumpTo_inhibit (v : Word) (s : State) : (jumpTo v s).inhibit = s.inhibit := rfl
@[simp] theorem jumpTo_nmiPending (v : Word) (s : State) : (jumpTo v s).nmiPending = s.nmiPending := rfl
@[simp] theorem jumpTo_intState (v : Word) (s : State) : (jumpTo v s).intState = s.intState := rfl
@[simp] theorem jumpTo_frameT (v : Word) (s : State) : (jumpTo v s).frameT = s.frameT := rfl
@[simp] theorem jumpTo_rom (v : Word) (s : State) : (jumpTo v s).rom = s.rom := rfl
@[simp] theorem jumpTo_ram (v : Word) (s : State) : (jumpTo v s).ram = s.ram := rfl
@[simp] theorem jumpTo_paging (v : Word) (s : State) : (jumpTo v s).paging = s.paging := rfl
@[simp] theorem jumpTo_border (v : Word) (s : State) : (jumpTo v s).border = s.border := rfl
@[simp] theorem jumpTo_beeper (v : Word) (s : State) : (jumpTo v s).beeper = s.beeper := rfl
@[simp] theorem jumpTo_mic (v : Word) (s : State) : (jumpTo v s).mic = s.mic := rfl
@[simp] theorem jumpTo_keyrow (v : Word) (s : State) : (jumpTo v s).keyrow = s.keyrow := rfl
@[simp] theorem jumpTo_tapeIn (v : Word) (s : State) : (jumpTo v s).tapeIn = s.tapeIn := rfl
@[simp] theorem jumpTo_aySel (v : Word) (s : State) : (jumpTo v s).aySel = s.aySel := rfl
@[simp] theorem jumpTo_ayReg (v : Word) (s : State) : (jumpTo v s).ayReg = s.ayReg := rfl
@[simp] theorem jumpTo_log (v : Word) (s : State) : (jumpTo v s).log = s.log := rfl
@[simp] theorem jumpTo_cfg (v : Word) (s : State) : (jumpTo v s).cfg = s.cfg := rfl
@[simp] theorem jumpTo_drive (v : Word) (s : State) : (jumpTo v s).drive = s.drive := rfl

/-! ### setR8: the registers no code names -/

@[simp] theorem setR8_f (r : R8) (v : Byte) (s : State) : (setR8 r v s).f = s.f := by cases r <;> rfl
@[simp] theorem setR8_a' (r : R8) (v : Byte) (s : State) : (setR8 r v s).a' = s.a' := by cases r <;> rfl
@[simp] theorem setR8_f' (r : R8) (v : Byte) (s : State) : (setR8 r v s).f' = s.f' := by cases r <;> rfl
@[simp] theorem setR8_b' (r : R8) (v : Byte) (s : State) : (setR8 r v s).b' = s.b' := by cases r <;> rfl
@[simp] theorem setR8_c' (r : R8) (v : Byte) (s : State) : (setR8 r v s).c' = s.c' := by cases r <;> rfl
@[simp] theorem setR8_d' (r : R8) (v : Byte) (s : State) : (setR8 r v s).d' = s.d' := by cases r <;> rfl
@[simp] theorem setR8_e' (r : R8) (v : Byte) (s : State) : (setR8 r v s).e' = s.e' := by cases r <;> rfl
@[simp] theorem setR8_h' (r : R8) (v : Byte) (s : State) : (setR8 r v s).h' = s.h' := by cases r <;> rfl
@[simp] theorem setR8_l' (r : R8) (v : Byte) (s : State) : (setR8 r v s).l' = s.l' := by cases r <;> rfl
@[simp] theorem setR8_ix (r : R8) (v : Byte) (s : State) : (setR8 r v s).ix = s.ix := by cases r <;> rfl
@[simp] theorem setR8_iy (r : R8) (v : Byte) (s : State) : (setR8 r v s).iy = s.iy := by cases r <;> rfl
@[simp] theorem setR8_sp (r : R8) (v : Byte) (s : State) : (setR8 r v s).sp = s.sp := by cases r <;> rfl
@[simp] theorem setR8_pc (r : R8) (v : Byte) (s : State) : (setR8 r v s).pc = s.pc := by cases r <;> rfl
@[simp] theorem setR8_i (r : R8) (v : Byte) (s : State) : (setR8 r v s).i = s.i := by cases r <;> rfl
@[simp] theorem setR8_r (r : R8) (v : Byte) (s : State) : (setR8 r v s).r = s.r := by cases r <;> rfl
@[simp] theorem setR8_iff1 (r : R8) (v : Byte) (s : State) : (setR8 r v s).iff1 = s.iff1 := by cases r <;> rfl
@[simp] theorem setR8_iff2 (r : R8) (v : Byte) (s : State) : (setR8 r v s).iff2 = s.iff2 := by cases r <;> rfl
@[simp] theorem setR8_im (r : R8) (v : Byte) (s : State) : (setR8 r v s).im = s.im := by cases r <;> rfl
@[simp] theorem setR8_halted (r : R8) (v : Byte) (s : State) : (setR8 r v s).halted = s.halted := by cases r <;> rfl
@[simp] theorem setR8_memptr (r : R8) (v : Byte) (s : State) : (setR8 r v s).memptr = s.memptr := by cases r <;> rfl
@[simp] theorem setR8_inhibit (r : R8) (v : Byte) (s : State) :
    (setR8 r v s).inhibit = s.inhibit := by cases r <;> rfl
@[simp] theorem setR8_nmiPending (r : R8) (v : Byte) (s : State) :
    (setR8 r v s).nmiPending = s.nmiPending := by cases r <;> rfl
@[simp] theorem setR8_intState (r : R8) (v : Byte) (s : State) :
    (setR8 r v s).intState = s.intState := by cases r <;> rfl
@[simp] theorem setR8_frameT (r : R8) (v : Byte) (s : State) : (setR8 r v s).frameT = s.frameT := by cases r <;> rfl
@[simp] theorem setR8_rom (r : R8) (v : Byte) (s : State) : (setR8 r v s).rom = s.rom := by cases r <;> rfl
@[simp] theorem setR8_ram (r : R8) (v : Byte) (s : State) : (setR8 r v s).ram = s.ram := by cases r <;> rfl
@[simp] theorem setR8_paging (r : R8) (v : Byte) (s : State) : (setR8 r v s).paging = s.paging := by cases r <;> rfl
@[simp] theorem setR8_border (r : R8) (v : Byte) (s : State) : (setR8 r v s).border = s.border := by cases r <;> rfl
@[simp] theorem setR8_beeper (r : R8) (v : Byte) (s : State) : (setR8 r v s).beeper = s.beeper := by cases r <;> rfl
@[simp] theorem setR8_mic (r : R8) (v : Byte) (s : State) : (setR8 r v s).mic = s.mic := by cases r <;> rfl
@[simp] theorem setR8_keyrow (r : R8) (v : Byte) (s : State) : (setR8 r v s).keyrow = s.keyrow := by cases r <;> rfl
@[simp] theorem setR8_tapeIn (r : R8) (v : Byte) (s : State) : (setR8 r v s).tapeIn = s.tapeIn := by cases r <;> rfl
@[simp] theorem setR8_aySel (r : R8) (v : Byte) (s : State) : (setR8 r v s).aySel = s.aySel := by cases r <;> rfl
@[simp] theorem setR8_ayReg (r : R8) (v : Byte) (s : State) : (setR8 r v s).ayReg = s.ayReg := by cases r <;> rfl
@[simp] theorem setR8_log (r : R8) (v : Byte) (s : State) : (setR8 r v s).log = s.log := by cases r <;> rfl
@[simp] theorem setR8_cfg (r : R8) (v : Byte) (s : State) : (setR8 r v s).cfg = s.cfg := by cases r <;> rfl
@[simp] theorem setR8_drive (r : R8) (v : Byte) (s : State) : (setR8 r v s).drive = s.drive := by cases r <;> rfl

/-! ### setXy -/

@[simp] theorem setXy_a (xy : XY) (v : Word) (s : State) : (setXy xy v s).a = s.a := by cases xy <;> rfl
@[simp] theorem setXy_f (xy : XY) (v : Word) (s : State) : (setXy xy v s).f = s.f := by cases xy <;> rfl
@[simp] theorem setXy_b (xy : XY) (v : Word) (s : State) : (setXy xy v s).b = s.b := by cases xy <;> rfl
@[simp] theorem setXy_c (xy : XY) (v : Word) (s : State) : (setXy xy v s).c = s.c := by cases xy <;> rfl
@[simp] theorem setXy_d (xy : XY) (v : Word) (s : State) : (setXy xy v s).d = s.d := by cases xy <;> rfl
@[simp] theorem setXy_e (xy : XY) (v : Word) (s : State) : (setXy xy v s).e = s.e := by cases xy <;> rfl
@[simp] theorem setXy_h (xy : XY) (v : Word) (s : State) : (setXy xy v s).h = s.h := by cases xy <;> rfl
@[simp] theorem setXy_l (xy : XY) (v : Word) (s : State) : (setXy xy v s).l = s.l := by cases xy <;> rfl
@[simp] theorem setXy_a' (xy : XY) (v : Word) (s : State) : (setXy xy v s).a' = s.a' := by cases xy <;> rfl
@[simp] theorem setXy_f' (xy : XY) (v : Word) (s : State) : (setXy xy v s).f' = s.f' := by cases xy <;> rfl
@[simp] theorem setXy_b' (xy : XY) (v : Word) (s : State) : (setXy xy v s).b' = s.b' := by cases xy <;> rfl
@[simp] theorem setXy_c' (xy : XY) (v : Word) (s : State) : (setXy xy v s).c' = s.c' := by cases xy <;> rfl
@[simp] theorem setXy_d' (xy : XY) (v : Word) (s : State) : (setXy xy v s).d' = s.d' := by cases xy <;> rfl
@[simp] theorem setXy_e' (xy : XY) (v : Word) (s : State) : (setXy xy v s).e' = s.e' := by cases xy <;> rfl
@[simp] theorem setXy_h' (xy : XY) (v : Word) (s : State) : (setXy xy v s).h' = s.h' := by cases xy <;> rfl
@[simp] theorem setXy_l' (xy : XY) (v : Word) (s : State) : (setXy xy v s).l' = s.l' := by cases xy <;> rfl
@[simp] theorem setXy_sp (xy : XY) (v : Word) (s : State) : (setXy xy v s).sp = s.sp := by cases xy <;> rfl
@[simp] theorem setXy_pc (xy : XY) (v : Word) (s : State) : (setXy xy v s).pc = s.pc := by cases xy <;> rfl
@[simp] theorem setXy_i (xy : XY) (v : Word) (s : State) : (setXy xy v s).i = s.i := by cases xy <;> rfl
@[simp] theorem setXy_r (xy : XY) (v : Word) (s : State) : (setXy xy v s).r = s.r := by cases xy <;> rfl
@[simp] theorem setXy_iff1 (xy : XY) (v : Word) (s : State) : (setXy xy v s).iff1 = s.iff1 := by cases xy <;> rfl
@[simp] theorem setXy_iff2 (xy : XY) (v : Word) (s : State) : (setXy xy v s).iff2 = s.iff2 := by cases xy <;> rfl
@[simp] theorem setXy_im (xy : XY) (v : Word) (s : State) : (setXy xy v s).im = s.im := by cases xy <;> rfl
@[simp] theorem setXy_halted (xy : XY) (v : Word) (s : State) :
    (setXy xy v s).halted = s.halted := by cases xy <;> rfl
@[simp] theorem setXy_memptr (xy : XY) (v : Word) (s : State) :
    (setXy xy v s).memptr = s.memptr := by cases xy <;> rfl
@[simp] theorem setXy_inhibit (xy : XY) (v : Word) (s : State) :
    (setXy xy v s).inhibit = s.inhibit := by cases xy <;> rfl
@[simp] theorem setXy_nmiPending (xy : XY) (v : Word) (s : State) :
    (setXy xy v s).nmiPending = s.nmiPending := by cases xy <;> rfl
@[simp] theorem setXy_intState (xy : XY) (v : Word) (s : State) :
    (setXy xy v s).intState = s.intState := by cases xy <;> rfl
@[simp] theorem setXy_frameT (xy : XY) (v : Word) (s : State) :
    (setXy xy v s).frameT = s.frameT := by cases xy <;> rfl
@[simp] theorem setXy_rom (xy : XY) (v : Word) (s : State) : (setXy xy v s).rom = s.rom := by cases xy <;> rfl
@[simp] theorem setXy_ram (xy : XY) (v : Word) (s : State) : (setXy xy v s).ram = s.ram := by cases xy <;> rfl
@[simp] theorem setXy_paging (xy : XY) (v : Word) (s : State) :
    (setXy xy v s).paging = s.paging := by cases xy <;> rfl
@[simp] theorem setXy_border (xy : XY) (v : Word) (s : State) :
    (setXy xy v s).border = s.border := by cases xy <;> rfl
@[simp] theorem setXy_beeper (xy : XY) (v : Word) (s : State) :
    (setXy xy v s).beeper = s.beeper := by cases xy <;> rfl
@[simp] theorem setXy_mic (xy : XY) (v : Word) (s : State) : (setXy xy v s).mic = s.mic := by cases xy <;> rfl
@[simp] theorem setXy_keyrow (xy : XY) (v : Word) (s : State) :
    (setXy xy v s).keyrow = s.keyrow := by cases xy <;> rfl
@[simp] theorem setXy_tapeIn (xy : XY) (v : Word) (s : State) :
    (setXy xy v s).tapeIn = s.tapeIn := by cases xy <;> rfl
@[simp] theorem setXy_aySel (xy : XY) (v : Word) (s : State) : (setXy xy v s).aySel = s.aySel := by cases xy <;> rfl
@[simp] theorem setXy_ayReg (xy : XY) (v : Word) (s : State) : (setXy xy v s).ayReg = s.ayReg := by cases xy <;> rfl
@[simp] theorem setXy_log (xy : XY) (v : Word) (s : State) : (setXy xy v s).log = s.log := by cases xy <;> rfl
@[simp] theorem setXy_cfg (xy : XY) (v : Word) (s : State) : (setXy xy v s).cfg = s.cfg := by cases xy <;> rfl
@[simp] theorem setXy_drive (xy : XY) (v : Word) (s : State) : (setXy xy v s).drive = s.drive := by cases xy <;> rfl

/-! ### setDd, setQq -/

@[simp] theorem setDd_a (p : DD) (v : Word) (s : State) : (setDd p v s).a = s.a := by cases p <;> rfl
@[simp] theorem setDd_f (p : DD) (v : Word) (s : State) : (setDd p v s).f = s.f := by cases p <;> rfl
@[simp] theorem setDd_a' (p : DD) (v : Word) (s : State) : (setDd p v s).a' = s.a' := by cases p <;> rfl
@[simp] theorem setDd_f' (p : DD) (v : Word) (s : State) : (setDd p v s).f' = s.f' := by cases p <;> rfl
@[simp] theorem setDd_b' (p : DD) (v : Word) (s : State) : (setDd p v s).b' = s.b' := by cases p <;> rfl
@[simp] theorem setDd_c' (p : DD) (v : Word) (s : State) : (setDd p v s).c' = s.c' := by cases p <;> rfl
@[simp] theorem setDd_d' (p : DD) (v : Word) (s : State) : (setDd p v s).d' = s.d' := by cases p <;> rfl
@[simp] theorem setDd_e' (p : DD) (v : Word) (s : State) : (setDd p v s).e' = s.e' := by cases p <;> rfl
@[simp] theorem setDd_h' (p : DD) (v : Word) (s : State) : (setDd p v s).h' = s.h' := by cases p <;> rfl
@[simp] theorem setDd_l' (p : DD) (v : Word) (s : State) : (setDd p v s).l' = s.l' := by cases p <;> rfl
@[simp] theorem setDd_ix (p : DD) (v : Word) (s : State) : (setDd p v s).ix = s.ix := by cases p <;> rfl
@[simp] theorem setDd_iy (p : DD) (v : Word) (s : State) : (setDd p v s).iy = s.iy := by cases p <;> rfl
@[simp] theorem setDd_pc (p : DD) (v : Word) (s : State) : (setDd p v s).pc = s.pc := by cases p <;> rfl
@[simp] theorem setDd_i (p : DD) (v : Word) (s : State) : (setDd p v s).i = s.i := by cases p <;> rfl
@[simp] theorem setDd_r (p : DD) (v : Word) (s : State) : (setDd p v s).r = s.r := by cases p <;> rfl
@[simp] theorem setDd_iff1 (p : DD) (v : Word) (s : State) : (setDd p v s).iff1 = s.iff1 := by cases p <;> rfl
@[simp] theorem setDd_iff2 (p : DD) (v : Word) (s : State) : (setDd p v s).iff2 = s.iff2 := by cases p <;> rfl
@[simp] theorem setDd_im (p : DD) (v : Word) (s : State) : (setDd p v s).im = s.im := by cases p <;> rfl
@[simp] theorem setDd_halted (p : DD) (v : Word) (s : State) : (setDd p v s).halted = s.halted := by cases p <;> rfl
@[simp] theorem setDd_memptr (p : DD) (v : Word) (s : State) : (setDd p v s).memptr = s.memptr := by cases p <;> rfl
@[simp] theorem setDd_inhibit (p : DD) (v : Word) (s : State) :
    (setDd p v s).inhibit = s.inhibit := by cases p <;> rfl
@[simp] theorem setDd_nmiPending (p : DD) (v : Word) (s : State) :
    (setDd p v s).nmiPending = s.nmiPending := by cases p <;> rfl
@[simp] theorem setDd_intState (p : DD) (v : Word) (s : State) :
    (setDd p v s).intState = s.intState := by cases p <;> rfl
@[simp] theorem setDd_frameT (p : DD) (v : Word) (s : State) : (setDd p v s).frameT = s.frameT := by cases p <;> rfl
@[simp] theorem setDd_rom (p : DD) (v : Word) (s : State) : (setDd p v s).rom = s.rom := by cases p <;> rfl
@[simp] theorem setDd_ram (p : DD) (v : Word) (s : State) : (setDd p v s).ram = s.ram := by cases p <;> rfl
@[simp] theorem setDd_paging (p : DD) (v : Word) (s : State) : (setDd p v s).paging = s.paging := by cases p <;> rfl
@[simp] theorem setDd_border (p : DD) (v : Word) (s : State) : (setDd p v s).border = s.border := by cases p <;> rfl
@[simp] theorem setDd_beeper (p : DD) (v : Word) (s : State) : (setDd p v s).beeper = s.beeper := by cases p <;> rfl
@[simp] theorem setDd_mic (p : DD) (v : Word) (s : State) : (setDd p v s).mic = s.mic := by cases p <;> rfl
@[simp] theorem setDd_keyrow (p : DD) (v : Word) (s : State) : (setDd p v s).keyrow = s.keyrow := by cases p <;> rfl
@[simp] theorem setDd_tapeIn (p : DD) (v : Word) (s : State) : (setDd p v s).tapeIn = s.tapeIn := by cases p <;> rfl
@[simp] theorem setDd_aySel (p : DD) (v : Word) (s : State) : (setDd p v s).aySel = s.aySel := by cases p <;> rfl
@[simp] theorem setDd_ayReg (p : DD) (v : Word) (s : State) : (setDd p v s).ayReg = s.ayReg := by cases p <;> rfl
@[simp] theorem setDd_log (p : DD) (v : Word) (s : State) : (setDd p v s).log = s.log := by cases p <;> rfl
@[simp] theorem setDd_cfg (p : DD) (v : Word) (s : State) : (setDd p v s).cfg = s.cfg := by cases p <;> rfl
@[simp] theorem setDd_drive (p : DD) (v : Word) (s : State) : (setDd p v s).drive = s.drive := by cases p <;> rfl

@[simp] theorem setQq_a' (p : QQ) (v : Word) (s : State) : (setQq p v s).a' = s.a' := by cases p <;> rfl
@[simp] theorem setQq_f' (p : QQ) (v : Word) (s : State) : (setQq p v s).f' = s.f' := by cases p <;> rfl
@[simp] theorem setQq_b' (p : QQ) (v : Word) (s : State) : (setQq p v s).b' = s.b' := by cases p <;> rfl
@[simp] theorem setQq_c' (p : QQ) (v : Word) (s : State) : (setQq p v s).c' = s.c' := by cases p <;> rfl
@[simp] theorem setQq_d' (p : QQ) (v : Word) (s : State) : (setQq p v s).d' = s.d' := by cases p <;> rfl
@[simp] theorem setQq_e' (p : QQ) (v : Word) (s : State) : (setQq p v s).e' = s.e' := by cases p <;> rfl
@[simp] theorem setQq_h' (p : QQ) (v : Word) (s : State) : (setQq p v s).h' = s.h' := by cases p <;> rfl
@[simp] theorem setQq_l' (p : QQ) (v : Word) (s : State) : (setQq p v s).l' = s.l' := by cases p <;> rfl
@[simp] theorem setQq_ix (p : QQ) (v : Word) (s : State) : (setQq p v s).ix = s.ix := by cases p <;> rfl
@[simp] theorem setQq_iy (p : QQ) (v : Word) (s : State) : (setQq p v s).iy = s.iy := by cases p <;> rfl
@[simp] theorem setQq_sp (p : QQ) (v : Word) (s : State) : (setQq p v s).sp = s.sp := by cases p <;> rfl
@[simp] theorem setQq_pc (p : QQ) (v : Word) (s : State) : (setQq p v s).pc = s.pc := by cases p <;> rfl
@[simp] theorem setQq_i (p : QQ) (v : Word) (s : State) : (setQq p v s).i = s.i := by cases p <;> rfl
@[simp] theorem setQq_r (p : QQ) (v : Word) (s : State) : (setQq p v s).r = s.r := by cases p <;> rfl
@[simp] theorem setQq_iff1 (p : QQ) (v : Word) (s : State) : (setQq p v s).iff1 = s.iff1 := by cases p <;> rfl
@[simp] theorem setQq_iff2 (p : QQ) (v : Word) (s : State) : (setQq p v s).iff2 = s.iff2 := by cases p <;> rfl
@[simp] theorem setQq_im (p : QQ) (v : Word) (s : State) : (setQq p v s).im = s.im := by cases p <;> rfl
@[simp] theorem setQq_halted (p : QQ) (v : Word) (s : State) : (setQq p v s).halted = s.halted := by cases p <;> rfl
@[simp] theorem setQq_memptr (p : QQ) (v : Word) (s : State) : (setQq p v s).memptr = s.memptr := by cases p <;> rfl
@[simp] theorem setQq_inhibit (p : QQ) (v : Word) (s : State) :
    (setQq p v s).inhibit = s.inhibit := by cases p <;> rfl
@[simp] theorem setQq_nmiPending (p : QQ) (v : Word) (s : State) :
    (setQq p v s).nmiPending = s.nmiPending := by cases p <;> rfl
@[simp] theorem setQq_intState (p : QQ) (v : Word) (s : State) :
    (setQq p v s).intState = s.intState := by cases p <;> rfl
@[simp] theorem setQq_frameT (p : QQ) (v : Word) (s : State) : (setQq p v s).frameT = s.frameT := by cases p <;> rfl
@[simp] theorem setQq_rom (p : QQ) (v : Word) (s : State) : (setQq p v s).rom = s.rom := by cases p <;> rfl
@[simp] theorem setQq_ram (p : QQ) (v : Word) (s : State) : (setQq p v s).ram = s.ram := by cases p <;> rfl
@[simp] theorem setQq_paging (p : QQ) (v : Word) (s : State) : (setQq p v s).paging = s.paging := by cases p <;> rfl
@[simp] theorem setQq_border (p : QQ) (v : Word) (s : State) : (setQq p v s).border = s.border := by cases p <;> rfl
@[simp] theorem setQq_beeper (p : QQ) (v : Word) (s : State) : (setQq p v s).beeper = s.beeper := by cases p <;> rfl
@[simp] theorem setQq_mic (p : QQ) (v : Word) (s : State) : (setQq p v s).mic = s.mic := by cases p <;> rfl
@[simp] theorem setQq_keyrow (p : QQ) (v : Word) (s : State) : (setQq p v s).keyrow = s.keyrow := by cases p <;> rfl
@[simp] theorem setQq_tapeIn (p : QQ) (v : Word) (s : State) : (setQq p v s).tapeIn = s.tapeIn := by cases p <;> rfl
@[simp] theorem setQq_aySel (p : QQ) (v : Word) (s : State) : (setQq p v s).aySel = s.aySel := by cases p <;> rfl
@[simp] theorem setQq_ayReg (p : QQ) (v : Word) (s : State) : (setQq p v s).ayReg = s.ayReg := by cases p <;> rfl
@[simp] theorem setQq_log (p : QQ) (v : Word) (s : State) : (setQq p v s).log = s.log := by cases p <;> rfl
@[simp] theorem setQq_cfg (p : QQ) (v : Word) (s : State) : (setQq p v s).cfg = s.cfg := by cases p <;> rfl
@[simp] theorem setQq_drive (p : QQ) (v : Word) (s : State) : (setQq p v s).drive = s.drive := by cases p <;> rfl

/-! ### setHalf, setP8 -/

@[simp] theorem setHalf_a (xy : XY) (j : Half) (v : Byte) (s : State) :
    (setHalf xy j v s).a = s.a := by cases j <;> cases xy <;> rfl
@[simp] theorem setHalf_f (xy : XY) (j : Half) (v : Byte) (s : State) :
    (setHalf xy j v s).f = s.f := by cases j <;> cases xy <;> rfl
@[simp] theorem setHalf_b (xy : XY) (j : Half) (v : Byte) (s : State) :
    (setHalf xy j v s).b = s.b := by cases j <;> cases xy <;> rfl
@[simp] theorem setHalf_c (xy : XY) (j : Half) (v : Byte) (s : State) :
    (setHalf xy j v s).c = s.c := by cases j <;> cases xy <;> rfl
@[simp] theorem setHalf_d (xy : XY) (j : Half) (v : Byte) (s : State) :
    (setHalf xy j v s).d = s.d := by cases j <;> cases xy <;> rfl
@[simp] theorem setHalf_e (xy : XY) (j : Half) (v : Byte) (s : State) :
    (setHalf xy j v s).e = s.e := by cases j <;> cases xy <;> rfl
@[simp] theorem setHalf_h (xy : XY) (j : Half) (v : Byte) (s : State) :
    (setHalf xy j v s).h = s.h := by cases j <;> cases xy <;> rfl
@[simp] theorem setHalf_l (xy : XY) (j : Half) (v : Byte) (s : State) :
    (setHalf xy j v s).l = s.l := by cases j <;> cases xy <;> rfl
@[simp] theorem setHalf_a' (xy : XY) (j : Half) (v : Byte) (s : State) :
    (setHalf xy j v s).a' = s.a' := by cases j <;> cases xy <;> rfl
@[simp] theorem setHalf_f' (xy : XY) (j : Half) (v : Byte) (s : State) :
    (setHalf xy j v s).f' = s.f' := by cases j <;> cases xy <;> rfl
@[simp] theorem setHalf_b' (xy : XY) (j : Half) (v : Byte) (s : State) :
    (setHalf xy j v s).b' = s.b' := by cases j <;> cases xy <;> rfl
@[simp] theorem setHalf_c' (xy : XY) (j : Half) (v : Byte) (s : State) :
    (setHalf xy j v s).c' = s.c' := by cases j <;> cases xy <;> rfl
@[simp] theorem setHalf_d' (xy : XY) (j : Half) (v : Byte) (s : State) :
    (setHalf xy j v s).d' = s.d' := by cases j <;> cases xy <;> rfl
@[simp] theorem setHalf_e' (xy : XY) (j : Half) (v : Byte) (s : State) :
    (setHalf xy j v s).e' = s.e' := by cases j <;> cases xy <;> rfl
@[simp] theorem setHalf_h' (xy : XY) (j : Half) (v : Byte) (s : State) :
    (setHalf xy j v s).h' = s.h' := by cases j <;> cases xy <;> rfl
@[simp] theorem setHalf_l' (xy : XY) (j : Half) (v : Byte) (s : State) :
    (setHalf xy j v s).l' = s.l' := by cases j <;> cases xy <;> rfl
@[simp] theorem setHalf_sp (xy : XY) (j : Half) (v : Byte) (s : State) :
    (setHalf xy j v s).sp = s.sp := by cases j <;> cases xy <;> rfl
@[simp] theorem setHalf_pc (xy : XY) (j : Half) (v : Byte) (s : State) :
    (setHalf xy j v s).pc = s.pc := by cases j <;> cases xy <;> rfl
@[simp] theorem setHalf_i (xy : XY) (j : Half) (v : Byte) (s : State) :
    (setHalf xy j v s).i = s.i := by cases j <;> cases xy <;> rfl
@[simp] theorem setHalf_r (xy : XY) (j : Half) (v : Byte) (s : State) :
    (setHalf xy j v s).r = s.r := by cases j <;> cases xy <;> rfl
@[simp] theorem setHalf_iff1 (xy : XY) (j : Half) (v : Byte) (s : State) :
    (setHalf xy j v s).iff1 = s.iff1 := by cases j <;> cases xy <;> rfl
@[simp] theorem setHalf_iff2 (xy : XY) (j : Half) (v : Byte) (s : State) :
    (setHalf xy j v s).iff2 = s.iff2 := by cases j <;> cases xy <;> rfl
@[simp] theorem setHalf_im (xy : XY) (j : Half) (v : Byte) (s : State) :
    (setHalf xy j v s).im = s.im := by cases j <;> cases xy <;> rfl
@[simp] theorem setHalf_halted (xy : XY) (j : Half) (v : Byte) (s : State) :
    (setHalf xy j v s).halted = s.halted := by cases j <;> cases xy <;> rfl
@[simp] theorem setHalf_memptr (xy : XY) (j : Half) (v : Byte) (s : State) :
    (setHalf xy j v s).memptr = s.memptr := by cases j <;> cases xy <;> rfl
@[simp] theorem setHalf_inhibit (xy : XY) (j : Half) (v : Byte) (s : State) :
    (setHalf xy j v s).inhibit = s.inhibit := by cases j <;> cases xy <;> rfl
@[simp] theorem setHalf_nmiPending (xy : XY) (j : Half) (v : Byte) (s : State) :
    (setHalf xy j v s).nmiPending = s.nmiPending := by cases j <;> cases xy <;> rfl
@[simp] theorem setHalf_intState (xy : XY) (j : Half) (v : Byte) (s : State) :
    (setHalf xy j v s).intState = s.intState := by cases j <;> cases xy <;> rfl
@[simp] theorem setHalf_frameT (xy : XY) (j : Half) (v : Byte) (s : State) :
    (setHalf xy j v s).frameT = s.frameT := by cases j <;> cases xy <;> rfl
@[simp] theorem setHalf_rom (xy : XY) (j : Half) (v : Byte) (s : State) :
    (setHalf xy j v s).rom = s.rom := by cases j <;> cases xy <;> rfl
@[simp] theorem setHalf_ram (xy : XY) (j : Half) (v : Byte) (s : State) :
    (setHalf xy j v s).ram = s.ram := by cases j <;> cases xy <;> rfl
@[simp] theorem setHalf_paging (xy : XY) (j : Half) (v : Byte) (s : State) :
    (setHalf xy j v s).paging = s.paging := by cases j <;> cases xy <;> rfl
@[simp] theorem setHalf_border (xy : XY) (j : Half) (v : Byte) (s : State) :
    (setHalf xy j v s).border = s.border := by cases j <;> cases xy <;> rfl
@[simp] theorem setHalf_beeper (xy : XY) (j : Half) (v : Byte) (s : State) :
    (setHalf xy j v s).beeper = s.beeper := by cases j <;> cases xy <;> rfl
@[simp] theorem setHalf_mic (xy : XY) (j : Half) (v : Byte) (s : State) :
    (setHalf xy j v s).mic = s.mic := by cases j <;> cases xy <;> rfl
@[simp] theorem setHalf_keyrow (xy : XY) (j : Half) (v : Byte) (s : State) :
    (setHalf xy j v s).keyrow = s.keyrow := by cases j <;> cases xy <;> rfl
@[simp] theorem setHalf_tapeIn (xy : XY) (j : Half) (v : Byte) (s : State) :
    (setHalf xy j v s).tapeIn = s.tapeIn := by cases j <;> cases xy <;> rfl
@[simp] theorem setHalf_aySel (xy : XY) (j : Half) (v : Byte) (s : State) :
    (setHalf xy j v s).aySel = s.aySel := by cases j <;> cases xy <;> rfl
@[simp] theorem setHalf_ayReg (xy : XY) (j : Half) (v : Byte) (s : State) :
    (setHalf xy j v s).ayReg = s.ayReg := by cases j <;> cases xy <;> rfl
@[simp] theorem setHalf_log (xy : XY) (j : Half) (v : Byte) (s : State) :
    (setHalf xy j v s).log = s.log := by cases j <;> cases xy <;> rfl
@[simp] theorem setHalf_cfg (xy : XY) (j : Half) (v : Byte) (s : State) :
    (setHalf xy j v s).cfg = s.cfg := by cases j <;> cases xy <;> rfl
@[simp] theorem setHalf_drive (xy : XY) (j : Half) (v : Byte) (s : State) :
    (setHalf xy j v s).drive = s.drive := by cases j <;> cases xy <;> rfl

@[simp] theorem setP8_f (xy : XY) (p : P8) (v : Byte) (s : State) :
    (setP8 xy p v s).f = s.f := by cases p <;> cases xy <;> rfl
@[simp] theorem setP8_a' (xy : XY) (p : P8) (v : Byte) (s : State) :
    (setP8 xy p v s).a' = s.a' := by cases p <;> cases xy <;> rfl
@[simp] theorem setP8_f' (xy : XY) (p : P8) (v : Byte) (s : State) :
    (setP8 xy p v s).f' = s.f' := by cases p <;> cases xy <;> rfl
@[simp] theorem setP8_b' (xy : XY) (p : P8) (v : Byte) (s : State) :
    (setP8 xy p v s).b' = s.b' := by cases p <;> cases xy <;> rfl
@[simp] theorem setP8_c' (xy : XY) (p : P8) (v : Byte) (s : State) :
    (setP8 xy p v s).c' = s.c' := by cases p <;> cases xy <;> rfl
@[simp] theorem setP8_d' (xy : XY) (p : P8) (v : Byte) (s : State) :
    (setP8 xy p v s).d' = s.d' := by cases p <;> cases xy <;> rfl
@[simp] theorem setP8_e' (xy : XY) (p : P8) (v : Byte) (s : State) :
    (setP8 xy p v s).e' = s.e' := by cases p <;> cases xy <;> rfl
@[simp] theorem setP8_h' (xy : XY) (p : P8) (v : Byte) (s : State) :
    (setP8 xy p v s).h' = s.h' := by cases p <;> cases xy <;> rfl
@[simp] theorem setP8_l' (xy : XY) (p : P8) (v : Byte) (s : State) :
    (setP8 xy p v s).l' = s.l' := by cases p <;> cases xy <;> rfl
@[simp] theorem setP8_sp (xy : XY) (p : P8) (v : Byte) (s : State) :
    (setP8 xy p v s).sp = s.sp := by cases p <;> cases xy <;> rfl
@[simp] theorem setP8_pc (xy : XY) (p : P8) (v : Byte) (s : State) :
    (setP8 xy p v s).pc = s.pc := by cases p <;> cases xy <;> rfl
@[simp] theorem setP8_i (xy : XY) (p : P8) (v : Byte) (s : State) :
    (setP8 xy p v s).i = s.i := by cases p <;> cases xy <;> rfl
@[simp] theorem setP8_r (xy : XY) (p : P8) (v : Byte) (s : State) :
    (setP8 xy p v s).r = s.r := by cases p <;> cases xy <;> rfl
@[simp] theorem setP8_iff1 (xy : XY) (p : P8) (v : Byte) (s : State) :
    (setP8 xy p v s).iff1 = s.iff1 := by cases p <;> cases xy <;> rfl
@[simp] theorem setP8_iff2 (xy : XY) (p : P8) (v : Byte) (s : State) :
    (setP8 xy p v s).iff2 = s.iff2 := by cases p <;> cases xy <;> rfl
@[simp] theorem setP8_im (xy : XY) (p : P8) (v : Byte) (s : State) :
    (setP8 xy p v s).im = s.im := by cases p <;> cases xy <;> rfl
@[simp] theorem setP8_halted (xy : XY) (p : P8) (v : Byte) (s : State) :
    (setP8 xy p v s).halted = s.halted := by cases p <;> cases xy <;> rfl
@[simp] theorem setP8_memptr (xy : XY) (p : P8) (v : Byte) (s : State) :
    (setP8 xy p v s).memptr = s.memptr := by cases p <;> cases xy <;> rfl
@[simp] theorem setP8_inhibit (xy : XY) (p : P8) (v : Byte) (s : State) :
    (setP8 xy p v s).inhibit = s.inhibit := by cases p <;> cases xy <;> rfl
@[simp] theorem setP8_nmiPending (xy : XY) (p : P8) (v : Byte) (s : State) :
    (setP8 xy p v s).nmiPending = s.nmiPending := by cases p <;> cases xy <;> rfl
@[simp] theorem setP8_intState (xy : XY) (p : P8) (v : Byte) (s : State) :
    (setP8 xy p v s).intState = s.intState := by cases p <;> cases xy <;> rfl
@[simp] theorem setP8_frameT (xy : XY) (p : P8) (v : Byte) (s : State) :
    (setP8 xy p v s).frameT = s.frameT := by cases p <;> cases xy <;> rfl
@[simp] theorem setP8_rom (xy : XY) (p : P8) (v : Byte) (s : State) :
    (setP8 xy p v s).rom = s.rom := by cases p <;> cases xy <;> rfl
@[simp] theorem setP8_ram (xy : XY) (p : P8) (v : Byte) (s : State) :
    (setP8 xy p v s).ram = s.ram := by cases p <;> cases xy <;> rfl
@[simp] theorem setP8_paging (xy : XY) (p : P8) (v : Byte) (s : State) :
    (setP8 xy p v s).paging = s.paging := by cases p <;> cases xy <;> rfl
@[simp] theorem setP8_border (xy : XY) (p : P8) (v : Byte) (s : State) :
    (setP8 xy p v s).border = s.border := by cases p <;> cases xy <;> rfl
@[simp] theorem setP8_beeper (xy : XY) (p : P8) (v : Byte) (s : State) :
    (setP8 xy p v s).beeper = s.beeper := by cases p <;> cases xy <;> rfl
@[simp] theorem setP8_mic (xy : XY) (p : P8) (v : Byte) (s : State) :
    (setP8 xy p v s).mic = s.mic := by cases p <;> cases xy <;> rfl
@[simp] theorem setP8_keyrow (xy : XY) (p : P8) (v : Byte) (s : State) :
    (setP8 xy p v s).keyrow = s.keyrow := by cases p <;> cases xy <;> rfl
@[simp] theorem setP8_tapeIn (xy : XY) (p : P8) (v : Byte) (s : State) :
    (setP8 xy p v s).tapeIn = s.tapeIn := by cases p <;> cases xy <;> rfl
@[simp] theorem setP8_aySel (xy : XY) (p : P8) (v : Byte) (s : State) :
    (setP8 xy p v s).aySel = s.aySel := by cases p <;> cases xy <;> rfl
@[simp] theorem setP8_ayReg (xy : XY) (p : P8) (v : Byte) (s : State) :
    (setP8 xy p v s).ayReg = s.ayReg := by cases p <;> cases xy <;> rfl
@[simp] theorem setP8_log (xy : XY) (p : P8) (v : Byte) (s : State) :
    (setP8 xy p v s).log = s.log := by cases p <;> cases xy <;> rfl
@[simp] theorem setP8_cfg (xy : XY) (p : P8) (v : Byte) (s : State) :
    (setP8 xy p v s).cfg = s.cfg := by cases p <;> cases xy <;> rfl
@[simp] theorem setP8_drive (xy : XY) (p : P8) (v : Byte) (s : State) :
    (setP8 xy p v s).drive = s.drive := by cases p <;> cases xy <;> rfl

/-! ### write8 -/

@[simp] theorem write8_a (a : Word) (v : Byte) (s : State) :
    (write8 a v s).a = s.a := by unfold write8; cases pageAt s a <;> rfl
@[simp] theorem write8_f (a : Word) (v : Byte) (s : State) :
    (write8 a v s).f = s.f := by unfold write8; cases pageAt s a <;> rfl
@[simp] theorem write8_b (a : Word) (v : Byte) (s : State) :
    (write8 a v s).b = s.b := by unfold write8; cases pageAt s a <;> rfl
@[simp] theorem write8_c (a : Word) (v : Byte) (s : State) :
    (write8 a v s).c = s.c := by unfold write8; cases pageAt s a <;> rfl
@[simp] theorem write8_d (a : Word) (v : Byte) (s : State) :
    (write8 a v s).d = s.d := by unfold write8; cases pageAt s a <;> rfl
@[simp] theorem write8_e (a : Word) (v : Byte) (s : State) :
    (write8 a v s).e = s.e := by unfold write8; cases pageAt s a <;> rfl
@[simp] theorem write8_h (a : Word) (v : Byte) (s : State) :
    (write8 a v s).h = s.h := by unfold write8; cases pageAt s a <;> rfl
@[simp] theorem write8_l (a : Word) (v : Byte) (s : State) :
    (write8 a v s).l = s.l := by unfold write8; cases pageAt s a <;> rfl
@[simp] theorem write8_a' (a : Word) (v : Byte) (s : State) :
    (write8 a v s).a' = s.a' := by unfold write8; cases pageAt s a <;> rfl
@[simp] theorem write8_f' (a : Word) (v : Byte) (s : State) :
    (write8 a v s).f' = s.f' := by unfold write8; cases pageAt s a <;> rfl
@[simp] theorem write8_b' (a : Word) (v : Byte) (s : State) :
    (write8 a v s).b' = s.b' := by unfold write8; cases pageAt s a <;> rfl
@[simp] theorem write8_c' (a : Word) (v : Byte) (s : State) :
    (write8 a v s).c' = s.c' := by unfold write8; cases pageAt s a <;> rfl
@[simp] theorem write8_d' (a : Word) (v : Byte) (s : State) :
    (write8 a v s).d' = s.d' := by unfold write8; cases pageAt s a <;> rfl
@[simp] theorem write8_e' (a : Word) (v : Byte) (s : State) :
    (write8 a v s).e' = s.e' := by unfold write8; cases pageAt s a <;> rfl
@[simp] theorem write8_h' (a : Word) (v : Byte) (s : State) :
    (write8 a v s).h' = s.h' := by unfold write8; cases pageAt s a <;> rfl
@[simp] theorem write8_l' (a : Word) (v : Byte) (s : State) :
    (write8 a v s).l' = s.l' := by unfold write8; cases pageAt s a <;> rfl
@[simp] theorem write8_ix (a : Word) (v : Byte) (s : State) :
    (write8 a v s).ix = s.ix := by unfold write8; cases pageAt s a <;> rfl
@[simp] theorem write8_iy (a : Word) (v : Byte) (s : State) :
    (write8 a v s).iy = s.iy := by unfold write8; cases pageAt s a <;> rfl
@[simp] theorem write8_sp (a : Word) (v : Byte) (s : State) :
    (write8 a v s).sp = s.sp := by unfold write8; cases pageAt s a <;> rfl
@[simp] theorem write8_pc (a : Word) (v : Byte) (s : State) :
    (write8 a v s).pc = s.pc := by unfold write8; cases pageAt s a <;> rfl
@[simp] theorem write8_i (a : Word) (v : Byte) (s : State) :
    (write8 a v s).i = s.i := by unfold write8; cases pageAt s a <;> rfl
@[simp] theorem write8_r (a : Word) (v : Byte) (s : State) :
    (write8 a v s).r = s.r := by unfold write8; cases pageAt s a <;> rfl
@[simp] theorem write8_iff1 (a : Word) (v : Byte) (s : State) :
    (write8 a v s).iff1 = s.iff1 := by unfold write8; cases pageAt s a <;> rfl
@[simp] theorem write8_iff2 (a : Word) (v : Byte) (s : State) :
    (write8 a v s).iff2 = s.iff2 := by unfold write8; cases pageAt s a <;> rfl
@[simp] theorem write8_im (a : Word) (v : Byte) (s : State) :
    (write8 a v s).im = s.im := by unfold write8; cases pageAt s a <;> rfl
@[simp] theorem write8_halted (a : Word) (v : Byte) (s : State) :
    (write8 a v s).halted = s.halted := by unfold write8; cases pageAt s a <;> rfl
@[simp] theorem write8_memptr (a : Word) (v : Byte) (s : State) :
    (write8 a v s).memptr = s.memptr := by unfold write8; cases pageAt s a <;> rfl
@[simp] theorem write8_inhibit (a : Word) (v : Byte) (s : State) :
    (write8 a v s).inhibit = s.inhibit := by unfold write8; cases pageAt s a <;> rfl
@[simp] theorem write8_nmiPending (a : Word) (v : Byte) (s : State) :
    (write8 a v s).nmiPending = s.nmiPending := by unfold write8; cases pageAt s a <;> rfl
@[simp] theorem write8_intState (a : Word) (v : Byte) (s : State) :
    (write8 a v s).intState = s.intState := by unfold write8; cases pageAt s a <;> rfl
@[simp] theorem write8_frameT (a : Word) (v : Byte) (s : State) :
    (write8 a v s).frameT = s.frameT := by unfold write8; cases pageAt s a <;> rfl
@[simp] theorem write8_rom (a : Word) (v : Byte) (s : State) :
    (write8 a v s).rom = s.rom := by unfold write8; cases pageAt s a <;> rfl
@[simp] theorem write8_paging (a : Word) (v : Byte) (s : State) :
    (write8 a v s).paging = s.paging := by unfold write8; cases pageAt s a <;> rfl
@[simp] theorem write8_border (a : Word) (v : Byte) (s : State) :
    (write8 a v s).border = s.border := by unfold write8; cases pageAt s a <;> rfl
@[simp] theorem write8_beeper (a : Word) (v : Byte) (s : State) :
    (write8 a v s).beeper = s.beeper := by unfold write8; cases pageAt s a <;> rfl
@[simp] theorem write8_mic (a : Word) (v : Byte) (s : State) :
    (write8 a v s).mic = s.mic := by unfold write8; cases pageAt s a <;> rfl
@[simp] theorem write8_keyrow (a : Word) (v : Byte) (s : State) :
    (write8 a v s).keyrow = s.keyrow := by unfold write8; cases pageAt s a <;> rfl
@[simp] theorem write8_tapeIn (a : Word) (v : Byte) (s : State) :
    (write8 a v s).tapeIn = s.tapeIn := by unfold write8; cases pageAt s a <;> rfl
@[simp] theorem write8_aySel (a : Word) (v : Byte) (s : State) :
    (write8 a v s).aySel = s.aySel := by unfold write8; cases pageAt s a <;> rfl
@[simp] theorem write8_ayReg (a : Word) (v : Byte) (s : State) :
    (write8 a v s).ayReg = s.ayReg := by unfold write8; cases pageAt s a <;> rfl
@[simp] theorem write8_log (a : Word) (v : Byte) (s : State) :
    (write8 a v s).log = s.log := by unfold write8; cases pageAt s a <;> rfl
@[simp] theorem write8_cfg (a : Word) (v : Byte) (s : State) :
    (write8 a v s).cfg = s.cfg := by unfold write8; cases pageAt s a <;> rfl
@[simp] theorem write8_drive (a : Word) (v : Byte) (s : State) :
    (write8 a v s).drive = s.drive := by unfold write8; cases pageAt s a <;> rfl

/-! ### pushed16 -/

@[simp] theorem pushed16_a (v : Word) (s : State) : (pushed16 v s).a = s.a := by simp [pushed16]
@[simp] theorem pushed16_f (v : Word) (s : State) : (pushed16 v s).f = s.f := by simp [pushed16]
@[simp] theorem pushed16_b (v : Word) (s : State) : (pushed16 v s).b = s.b := by simp [pushed16]
@[simp] theorem pushed16_c (v : Word) (s : State) : (pushed16 v s).c = s.c := by simp [pushed16]
@[simp] theorem pushed16_d (v : Word) (s : State) : (pushed16 v s).d = s.d := by simp [pushed16]
@[simp] theorem pushed16_e (v : Word) (s : State) : (pushed16 v s).e = s.e := by simp [pushed16]
@[simp] theorem pushed16_h (v : Word) (s : State) : (pushed16 v s).h = s.h := by simp [pushed16]
@[simp] theorem pushed16_l (v : Word) (s : State) : (pushed16 v s).l = s.l := by simp [pushed16]
@[simp] theorem pushed16_a' (v : Word) (s : State) : (pushed16 v s).a' = s.a' := by simp [pushed16]
@[simp] theorem pushed16_f' (v : Word) (s : State) : (pushed16 v s).f' = s.f' := by simp [pushed16]
@[simp] theorem pushed16_b' (v : Word) (s : State) : (pushed16 v s).b' = s.b' := by simp [pushed16]
@[simp] theorem pushed16_c' (v : Word) (s : State) : (pushed16 v s).c' = s.c' := by simp [pushed16]
@[simp] theorem pushed16_d' (v : Word) (s : State) : (pushed16 v s).d' = s.d' := by simp [pushed16]
@[simp] theorem pushed16_e' (v : Word) (s : State) : (pushed16 v s).e' = s.e' := by simp [pushed16]
@[simp] theorem pushed16_h' (v : Word) (s : State) : (pushed16 v s).h' = s.h' := by simp [pushed16]
@[simp] theorem pushed16_l' (v : Word) (s : State) : (pushed16 v s).l' = s.l' := by simp [pushed16]
@[simp] theorem pushed16_ix (v : Word) (s : State) : (pushed16 v s).ix = s.ix := by simp [pushed16]
@[simp] theorem pushed16_iy (v : Word) (s : State) : (pushed16 v s).iy = s.iy := by simp [pushed16]
@[simp] theorem pushed16_sp (v : Word) (s : State) : (pushed16 v s).sp = s.sp - 2 := by simp [pushed16]
@[simp] theorem pushed16_pc (v : Word) (s : State) : (pushed16 v s).pc = s.pc := by simp [pushed16]
@[simp] theorem pushed16_i (v : Word) (s : State) : (pushed16 v s).i = s.i := by simp [pushed16]
@[simp] theorem pushed16_r (v : Word) (s : State) : (pushed16 v s).r = s.r := by simp [pushed16]
@[simp] theorem pushed16_iff1 (v : Word) (s : State) : (pushed16 v s).iff1 = s.iff1 := by simp [pushed16]
@[simp] theorem pushed16_iff2 (v : Word) (s : State) : (pushed16 v s).iff2 = s.iff2 := by simp [pushed16]
@[simp] theorem pushed16_im (v : Word) (s : State) : (pushed16 v s).im = s.im := by simp [pushed16]
@[simp] theorem pushed16_halted (v : Word) (s : State) : (pushed16 v s).halted = s.halted := by simp [pushed16]
@[simp] theorem pushed16_memptr (v : Word) (s : State) : (pushed16 v s).memptr = s.memptr := by simp [pushed16]
@[simp] theorem pushed16_inhibit (v : Word) (s : State) : (pushed16 v s).inhibit = s.inhibit := by simp [pushed16]
@[simp] theorem pushed16_nmiPending (v : Word) (s : State) :
    (pushed16 v s).nmiPending = s.nmiPending := by simp [pushed16]
@[simp] theorem pushed16_intState (v : Word) (s : State) : (pushed16 v s).intState = s.intState := by simp [pushed16]
@[simp] theorem pushed16_frameT (v : Word) (s : State) : (pushed16 v s).frameT = s.frameT := by simp [pushed16]
@[simp] theorem pushed16_rom (v : Word) (s : State) : (pushed16 v s).rom = s.rom := by simp [pushed16]
@[simp] theorem pushed16_paging (v : Word) (s : State) : (pushed16 v s).paging = s.paging := by simp [pushed16]
@[simp] theorem pushed16_border (v : Word) (s : State) : (pushed16 v s).border = s.border := by simp [pushed16]
@[simp] theorem pushed16_beeper (v : Word) (s : State) : (pushed16 v s).beeper = s.beeper := by simp [pushed16]
@[simp] theorem pushed16_mic (v : Word) (s : State) : (pushed16 v s).mic = s.mic := by simp [pushed16]
@[simp] theorem pushed16_keyrow (v : Word) (s : State) : (pushed16 v s).keyrow = s.keyrow := by simp [pushed16]
@[simp] theorem pushed16_tapeIn (v : Word) (s : State) : (pushed16 v s).tapeIn = s.tapeIn := by simp [pushed16]
@[simp] theorem pushed16_aySel (v : Word) (s : State) : (pushed16 v s).aySel = s.aySel := by simp [pushed16]
@[simp] theorem pushed16_ayReg (v : Word) (s : State) : (pushed16 v s).ayReg = s.ayReg := by simp [pushed16]
@[simp] theorem pushed16_log (v : Word) (s : State) : (pushed16 v s).log = s.log := by simp [pushed16]
@[simp] theorem pushed16_cfg (v : Word) (s : State) : (pushed16 v s).cfg = s.cfg := by simp [pushed16]
@[simp] theorem pushed16_drive (v : Word) (s : State) : (pushed16 v s).drive = s.drive := by simp [pushed16]

/-! ### Reading back what was written -/

@[simp] theorem getR8_setR8 (r : R8) (v : Byte) (s : State) : getR8 (setR8 r v s) r = v := by cases r <;> rfl

theorem getR8_setR8_other {r r' : R8} (h : r' ≠ r) (v : Byte) (s : State) : getR8 (setR8 r v s) r' = getR8 s r' := by
  cases r <;> cases r' <;> first | rfl | exact absurd rfl h

@[simp] theorem getXy_setXy (xy : XY) (v : Word) (s : State) : getXy (setXy xy v s) xy = v := by cases xy <;> rfl

@[simp] theorem getDd_setDd (p : DD) (v : Word) (s : State) : getDd (setDd p v s) p = v := by
  cases p <;> simp [getDd, setDd, State.bc, State.de, State.hl]

@[simp] theorem getQq_setQq (p : QQ) (v : Word) (s : State) : getQq (setQq p v s) p = v := by
  cases p <;> simp [getQq, setQq, State.bc, State.de, State.hl, State.af]

/-! ### Updates that commute with a byte store -/

theorem write8_memptr_update (a : Word) (v : Byte) (p : Word) (s : State) :
    write8 a v { s with memptr := p } = { write8 a v s with memptr := p } := by
  unfold write8
  rw [show pageAt { s with memptr := p } a = pageAt s a from rfl]
  cases pageAt s a <;> rfl

/-! ### Reset -/

theorem reset_ram_wf : State.reset.ram.wf = true := rfl

theorem reset_rom_wf : State.reset.rom.wf = true := rfl

end Sys2Proof.Machine
end

