-- ==== Sys2Proof/Laws/Ops.lean ====
section
/-! SUPPORT. What the named operations do, once each: every fetch, cycle and wait in the form `ran`, so that the meaning
of an instruction reads as its length, its opcode fetches, its bus-cycle string and the fields it writes. -/

namespace Sys2Proof.Machine

theorem refreshed_parts (x : BitVec 7) (y : BitVec 1) : (y ++ x : Byte).extractLsb' 7 1 = y ∧ (y ++ x : Byte).extractLsb' 0 7 = x := by
  revert x y
  decide

theorem refreshed_zero (r : Byte) : refreshed r 0 = r := by
  revert r
  decide

/-- Fetches add up. -/
theorem refreshed_refreshed (r : Byte) (m k : Nat) : refreshed (refreshed r m) k = refreshed r (m + k) := by
  unfold refreshed
  rw [(refreshed_parts _ _).1, (refreshed_parts _ _).2, BitVec.add_assoc, ← BitVec.ofNat_add]

/-- `incR` is one fetch. -/
theorem incR_eq (r : Byte) : incR r = refreshed r 1 := rfl

theorem timeAfter_append (cfg : Config) (pg : BitVec 6) (x : Nat) (cs ds : List Cycle) :
    timeAfter cfg pg x (cs ++ ds) = timeAfter cfg pg (timeAfter cfg pg x cs) ds := by
  induction cs generalizing x with
  | nil => rfl
  | cons c cs ih => exact ih _

/-- Runs of fetches and time add up. -/
theorem ran_ran (s : State) (l m l' m' : Nat) (cs ds : List Cycle) :
    ran (ran s l m cs) l' m' ds = ran s (l + l') (m + m') (cs ++ ds) := by
  simp only [ran, refreshed_refreshed, timeAfter_append, BitVec.add_assoc, ← BitVec.ofNat_add]

/-- Time after a run. -/
theorem ran_more (s : State) (l m : Nat) (cs ds : List Cycle) :
    ran (ran s l m cs) 0 0 ds = ran s l m (cs ++ ds) := ran_ran s l m 0 0 cs ds

/-- Time passing is a run of no byte. -/
theorem ran_of_frameT (s : State) (cs : List Cycle) :
    ran s 0 0 cs = { s with frameT := timeAfter s.cfg s.paging s.frameT cs } := by
  simp only [ran, refreshed_zero, BitVec.add_zero]

/-- No byte and no time. -/
theorem ran_nil (s : State) : ran s 0 0 [] = s := by
  rw [ran_of_frameT]
  rfl

/-- A memory cycle. -/
theorem cycle_ran (a : Word) (n : Nat) (s : State) : cycle a n s = ran s 0 0 [.mem a n] := by
  rw [ran_of_frameT]
  rfl

/-- A memory cycle of one T-state is an internal one. -/
theorem cycle1_ran (a : Word) (s : State) : cycle a 1 s = ran s 0 0 [.idle a 1] := by
  rw [ran_of_frameT]
  rfl

/-- Internal T-states. -/
theorem internal_ran (a : Word) (k : Nat) (s : State) : internal a k s = ran s 0 0 [.idle a k] := by
  rw [ran_of_frameT]
  induction k generalizing s with
  | zero => rfl
  | succ k ih =>
    simp only [internal, ih]
    rfl

/-- An I/O cycle. -/
theorem ioCycle_ran (p : Word) (s : State) : ioCycle p s = ran s 0 0 [.io p] := by
  rw [ran_of_frameT]
  have hc : contendedPage s.cfg.model (pageMap s.cfg.model s.paging (slotOf p)) = contended s p := rfl
  change ioCycle p s = { s with frameT := ioEnd s.cfg s.paging p s.frameT }
  unfold ioCycle ioEnd
  rw [hc]
  cases contended s p <;> cases p.getLsbD 0 <;>
    simp only [Bool.false_eq_true, if_false, if_true, ioPart, tick, partEnd]

/-- Time without contention. -/
theorem tick_ran (n : Nat) (s : State) : tick n s = ran s 0 0 [.ack n] := by
  rw [ran_of_frameT]
  rfl

/-- An opcode fetch. -/
theorem fetchOp_ran (s : State) : fetchOp s = ran s 1 1 [.mem s.pc 4] := rfl

/-- An operand fetch. -/
theorem fetch8_ran (s : State) : fetch8 s = ran s 1 0 [.mem s.pc 3] := by
  simp only [fetch8, cycle_ran, ran, refreshed_zero]
  rfl

/-- Two opcode fetches. -/
theorem fetchOp2_ran (s : State) : fetchOp2 s = ran s 2 2 (cyc2 s) := by
  simp only [fetchOp2, fetchOp_ran, ran_ran]
  rfl

/-- Two operand fetches. -/
theorem fetch16_ran (s : State) : fetch16 s = ran s 2 0 [.mem s.pc 3, .mem (s.pc + 1) 3] := by
  simp only [fetch16, fetch8_ran, ran_ran]
  rfl

/-- The two reads of a word. -/
theorem cycle16_ran (a : Word) (s : State) : cycle16 a s = ran s 0 0 [.mem a 3, .mem (a + 1) 3] := by
  simp only [cycle16, cycle_ran, ran_ran]
  rfl

/-- A store after fetches and time is the run after the store. -/
theorem write8_ran (s : State) (l m : Nat) (cs : List Cycle) (a : Word) (v : Byte) :
    write8 a v (ran s l m cs) = ran (write8 a v s) l m cs := by
  unfold write8
  rw [show pageAt (ran s l m cs) a = pageAt s a from rfl]
  cases pageAt s a <;> rfl

/-- Everything a byte store can do: the RAM bank, nothing else. -/
theorem write8_eq (a : Word) (v : Byte) (s : State) : write8 a v s = { s with ram := (write8 a v s).ram } := by
  unfold write8
  cases pageAt s a <;> rfl

theorem store8_ran (a : Word) (v : Byte) (s : State) : store8 a v s = ran (write8 a v s) 0 0 [.mem a 3] := by
  rw [store8, cycle_ran, write8_ran]

/-- `store8` on a state in the form `ran`. -/
theorem store8_after (s : State) (l m : Nat) (cs : List Cycle) (a : Word) (v : Byte) :
    store8 a v (ran s l m cs) = ran (write8 a v s) l m (cs ++ [.mem a 3]) := by
  have h : write8 a v (ran (ran s l m cs) 0 0 [.mem a 3]) = ran (ran (write8 a v s) l m cs) 0 0 [.mem a 3] := by
    rw [write8_ran, write8_ran]
  rw [store8, cycle_ran, h, ran_ran]
  rfl

/-- The two stores of a word. -/
theorem store16_after (s : State) (l m : Nat) (cs : List Cycle) (a v : Word) :
    store16 a v (ran s l m cs) = ran (written16 a v s) l m (cs ++ [.mem a 3, .mem (a + 1) 3]) := by
  rw [store16, store8_after, store8_after, List.append_assoc]
  rfl

/-- A read-modify-write. -/
theorem modify_after (s : State) (l m : Nat) (cs : List Cycle) (a : Word) (v : Byte) :
    modify a v (ran s l m cs) = ran (write8 a v s) l m (cs ++ cycRmw a) := by
  have h : cycle a 1 (cycle a 3 (ran s l m cs)) = ran s l m (cs ++ [.mem a 3, .mem a 1]) := by
    simp only [cycle_ran, ran_ran, List.append_assoc]
    rfl
  rw [modify, h, store8_after, List.append_assoc]
  unfold ran
  simp only [timeAfter_append]
  rfl

/-- The address before the next byte, after some bytes. -/
theorem pc_before (p : Word) (n : Nat) : p + BitVec.ofNat 16 (n + 1) - 1 = p + BitVec.ofNat 16 n := by
  rw [BitVec.sub_eq_iff_eq_add, BitVec.add_assoc, BitVec.ofNat_add]
  rfl

/-- The fetches of an indexed form. -/
theorem indexed_fetch (s : State) :
    internal ((fetch8 (fetchOp2 s)).pc - 1) 5 (fetch8 (fetchOp2 s)) = ran s 3 2 (cycXy s) := by
  have h : fetch8 (fetchOp2 s) = ran s 3 2 [.mem s.pc 4, .mem (s.pc + 1) 4, .mem (s.pc + 2) 3] := by
    rw [fetchOp2_ran, fetch8_ran, ran_ran]
    rfl
  rw [h, internal_ran, ran_ran]
  change ran s 3 2 ([.mem s.pc 4, .mem (s.pc + 1) 4, .mem (s.pc + 2) 3]
    ++ [.idle (s.pc + BitVec.ofNat 16 3 - 1) 5]) = _
  rw [pc_before]
  rfl

/-- An indexed form: its fetches and MEMPTR. -/
theorem indexed_ran (xy : XY) (d : Byte) (s : State) :
    indexed xy d s = { ran s 3 2 (cycXy s) with memptr := indexAddr s xy d } := by
  rw [← indexed_fetch]
  rfl

/-- The fetches of a four-byte indexed form. -/
theorem indexed4_fetch (s : State) :
    internal ((fetch16 (fetchOp2 s)).pc - 1) 2 (fetch16 (fetchOp2 s)) = ran s 4 2 (cycXy4 s) := by
  have h : fetch16 (fetchOp2 s)
      = ran s 4 2 [.mem s.pc 4, .mem (s.pc + 1) 4, .mem (s.pc + 2) 3, .mem (s.pc + 2 + 1) 3] := by
    rw [fetchOp2_ran, fetch16_ran, ran_ran]
    rfl
  rw [h, internal_ran, ran_ran]
  change ran s 4 2 ([.mem s.pc 4, .mem (s.pc + 1) 4, .mem (s.pc + 2) 3, .mem (s.pc + 2 + 1) 3]
    ++ [.idle (s.pc + BitVec.ofNat 16 4 - 1) 2]) = _
  rw [pc_before, BitVec.add_assoc]
  rfl

/-- A four-byte indexed form: its fetches and MEMPTR. -/
theorem indexed4_ran (xy : XY) (d : Byte) (s : State) :
    indexed4 xy d s = { ran s 4 2 (cycXy4 s) with memptr := indexAddr s xy d } := by
  rw [← indexed4_fetch]
  rfl

/-- Two fetches of one byte each, the second an operand. -/
theorem fetchN_ran (s : State) : fetch8 (fetchOp s) = ran s 2 1 [.mem s.pc 4, .mem (s.pc + 1) 3] := by
  rw [fetchOp_ran, fetch8_ran, ran_ran]
  rfl

/-- An opcode and a 16-bit operand. -/
theorem fetchNn_ran (s : State) : fetch16 (fetchOp s) = ran s 3 1 (cycNn1 s) := by
  rw [fetchOp_ran, fetch16_ran, ran_ran]
  change ran s 3 1 ([.mem s.pc 4] ++ [.mem (s.pc + 1) 3, .mem (s.pc + 1 + 1) 3]) = _
  rw [BitVec.add_assoc]
  rfl

/-- Two opcodes and an operand. -/
theorem fetch2N_ran (s : State) :
    fetch8 (fetchOp2 s) = ran s 3 2 [.mem s.pc 4, .mem (s.pc + 1) 4, .mem (s.pc + 2) 3] := by
  rw [fetchOp2_ran, fetch8_ran, ran_ran]
  rfl

/-- Two opcodes and a 16-bit operand. -/
theorem fetch2Nn_ran (s : State) : fetch16 (fetchOp2 s) = ran s 4 2 (cycNn2 s) := by
  rw [fetchOp2_ran, fetch16_ran, ran_ran]
  change ran s 4 2 (cyc2 s ++ [.mem (s.pc + 2) 3, .mem (s.pc + 2 + 1) 3]) = _
  rw [BitVec.add_assoc]
  rfl

/-- A byte store does not look at SP. -/
theorem write8_setSp (a : Word) (v : Byte) (p : Word) (s : State) :
    write8 a v (setSp p s) = setSp p (write8 a v s) := by
  unfold write8
  rw [show pageAt (setSp p s) a = pageAt s a from rfl]
  cases pageAt s a <;> rfl

theorem ran_setSp (l m : Nat) (cs : List Cycle) (p : Word) (s : State) :
    ran (setSp p s) l m cs = setSp p (ran s l m cs) := rfl

/-- A timed store does not look at SP. -/
theorem store8_setSp (a : Word) (v : Byte) (p : Word) (s : State) :
    store8 a v (setSp p s) = setSp p (store8 a v s) := by
  rw [store8_ran, write8_setSp, ran_setSp, store8_ran]

theorem setSp_setSp (p q : Word) (s : State) : setSp p (setSp q s) = setSp p s := rfl

/-- A push as two stores and SP. -/
theorem push16_eq (v : Word) (s : State) :
    push16 v s = setSp (s.sp - 2) (store8 (s.sp - 2) (loByte v) (store8 (s.sp - 1) (hiByte v) s)) := by
  have h2 : s.sp - 1 - 1 = s.sp - 2 := by
    rw [BitVec.sub_sub]
    rfl
  unfold push16
  simp only [store8_setSp, setSp_sp, setSp_setSp, h2]

/-- A push after fetches and time: both bytes, SP, two write cycles. -/
theorem push16_after (s : State) (l m : Nat) (cs : List Cycle) (v : Word) :
    push16 v (ran s l m cs) = ran (pushed16 v s) l m (cs ++ cycPush s) := by
  rw [push16_eq, show (ran s l m cs).sp = s.sp from rfl, store8_after, store8_after, List.append_assoc, pushed16,
    ran_setSp]
  rfl

/-- A pop after fetches and time: SP and two read cycles. -/
theorem pop16_after (s : State) (l m : Nat) (cs : List Cycle) :
    pop16 (ran s l m cs) = { ran s l m (cs ++ cycPop s) with sp := s.sp + 2 } := by
  rw [pop16, show (ran s l m cs).sp = s.sp from rfl, cycle16_ran, ran_ran]
  rfl

/-- Everything taking an interrupt does: PC pushed, IFF1 and the halted state cleared, one count of R, the acknowledge. -/
theorem enterTrap_ran (n : Nat) (s : State) :
    enterTrap n s =
      { ran (pushed16 s.pc s) 0 1 ([.ack n] ++ cycPush s) with halted := false, iff1 := false } := by
  have h : tick n { s with halted := false, iff1 := false, r := incR s.r }
      = ran { s with halted := false, iff1 := false } 0 1 [.ack n] := by
    rw [tick_ran, ran_of_frameT]
    simp only [ran, BitVec.add_zero, incR_eq]
  have hw : ∀ (a : Word) (b : Byte) (x : State),
      write8 a b { x with halted := false, iff1 := false } = { write8 a b x with halted := false, iff1 := false } := by
    intro a b x
    unfold write8
    rw [show pageAt { x with halted := false, iff1 := false } a = pageAt x a from rfl]
    cases pageAt x a <;> rfl
  unfold enterTrap
  rw [h, push16_after, pushed16, pushed16, hw, hw]
  rfl

/-! ### The operand forms with their cycles -/

/-- An indexed form that reads its byte. -/
theorem indexed_cycle (xy : XY) (d : Byte) (s : State) :
    cycle (indexAddr s xy d) 3 (indexed xy d s) =
      { ran s 3 2 (cycXy s ++ [.mem (indexAddr s xy d) 3]) with memptr := indexAddr s xy d } := by
  rw [indexed_ran, cycle_ran, ← ran_ran s 3 2 0 0]
  rfl

/-- An indexed form that stores a byte. -/
theorem indexed_store (xy : XY) (d v : Byte) (s : State) :
    store8 (indexAddr s xy d) v (indexed xy d s) =
      { ran (write8 (indexAddr s xy d) v s) 3 2 (cycXy s ++ [.mem (indexAddr s xy d) 3]) with
        memptr := indexAddr s xy d } := by
  rw [indexed_ran]
  refine (store8_after { s with memptr := indexAddr s xy d } 3 2 (cycXy s) _ v).trans ?_
  rw [write8_memptr_update]
  rfl

/-- An indexed read-modify-write. -/
theorem indexed_modify (xy : XY) (d v : Byte) (s : State) :
    modify (indexAddr s xy d) v (indexed xy d s) =
      { ran (write8 (indexAddr s xy d) v s) 3 2 (cycXy s ++ cycRmw (indexAddr s xy d)) with
        memptr := indexAddr s xy d } := by
  rw [indexed_ran]
  refine (modify_after { s with memptr := indexAddr s xy d } 3 2 (cycXy s) _ v).trans ?_
  rw [write8_memptr_update]
  rfl

/-- A four-byte indexed form that stores a byte. -/
theorem indexed4_store (xy : XY) (d v : Byte) (s : State) :
    store8 (indexAddr s xy d) v (indexed4 xy d s) =
      { ran (write8 (indexAddr s xy d) v s) 4 2 (cycXy4 s ++ [.mem (indexAddr s xy d) 3]) with
        memptr := indexAddr s xy d } := by
  rw [indexed4_ran]
  refine (store8_after { s with memptr := indexAddr s xy d } 4 2 (cycXy4 s) _ v).trans ?_
  rw [write8_memptr_update]
  rfl

/-- A four-byte indexed read-modify-write. -/
theorem indexed4_modify (xy : XY) (d v : Byte) (s : State) :
    modify (indexAddr s xy d) v (indexed4 xy d s) =
      { ran (write8 (indexAddr s xy d) v s) 4 2 (cycXy4 s ++ cycRmw (indexAddr s xy d)) with
        memptr := indexAddr s xy d } := by
  rw [indexed4_ran]
  refine (modify_after { s with memptr := indexAddr s xy d } 4 2 (cycXy4 s) _ v).trans ?_
  rw [write8_memptr_update]
  rfl

/-- The fetches of the I and R loads. -/
theorem fetchIr_ran (s : State) : fetchIr s = ran s 2 2 (cyc2 s ++ [.idle (irAfter s 2) 1]) := by
  unfold fetchIr
  simp only [fetchOp2_ran, internal_ran, ran_ran]
  rfl

/-- The fetches of a block input or output. -/
theorem blockIoFetch_ran (s : State) : blockIoFetch s = ran s 2 2 (cyc2 s ++ [.idle (irAfter s 2) 1]) :=
  fetchIr_ran s

/-- A pop of PC after fetches and time. -/
theorem popPc_after (s : State) (l m : Nat) (cs : List Cycle) :
    popPc (ran s l m cs) =
      { ran s l m (cs ++ cycPop s) with sp := s.sp + 2, pc := read16 s s.sp, memptr := read16 s s.sp } := by
  rw [popPc, pop16_after]
  rfl

end Sys2Proof.Machine
end

