-- ==== Sys2Proof/Laws/Paging.lean ====
section
/-! SUPPORT. What the page map and the byte accesses can do: keys of different places differ, a mapped page is a page of
its bank, and a store or a poke keeps both banks canonical and within their pages. -/

namespace Sys2Proof.Machine

theorem offsetOf_lt (a : Word) : offsetOf a < pageSize := (a.extractLsb' 0 14).isLt

theorem slotOf_lt (a : Word) : slotOf a < 4 := (a.extractLsb' 14 2).isLt

/-- Different places have different keys. -/
theorem cellKey_inj {p q o o' : Nat} (h : o < pageSize) (h' : o' < pageSize) :
    cellKey p o = cellKey q o' ↔ p = q ∧ o = o' := by
  unfold cellKey pageSize at *
  omega

/-- The key of a byte of a page is below the end of its bank. -/
theorem cellKey_lt {p n o : Nat} (hp : p < n) (h : o < pageSize) : cellKey p o < n * pageSize := by
  unfold cellKey pageSize at *
  omega

theorem pageMap_ram_lt {m : Model} {g : BitVec 6} {k n : Nat} (h : pageMap m g k = .ram n) : n < ramPages m := by
  have := (g.extractLsb' 0 3).isLt
  unfold pageMap at h
  split at h <;> cases h <;> simp only [ramPages, ramSel] <;> omega

theorem pageMap_rom_lt {m : Model} {g : BitVec 6} {k n : Nat} (h : pageMap m g k = .rom n) : n < romPages m := by
  have := (g.extractLsb' 4 1).isLt
  unfold pageMap at h
  split at h <;> cases h <;> simp only [romPages, romSel] <;> omega

/-- A store keeps RAM canonical. -/
theorem write8_ram_wf {s : State} (h : s.ram.wf = true) (a : Word) (v : Byte) : (write8 a v s).ram.wf = true := by
  unfold write8
  split
  · exact h
  · exact Memory.write_wf h _ _

/-- A store keeps RAM within its pages. -/
theorem write8_ram_below {s : State} (h : s.ram.below (ramPages s.cfg.model * pageSize) = true) (a : Word) (v : Byte) :
    (write8 a v s).ram.below (ramPages s.cfg.model * pageSize) = true := by
  unfold write8
  split
  · exact h
  · exact Memory.write_below (cellKey_lt (pageMap_ram_lt ‹_›) (offsetOf_lt a)) h

/-- A byte put from outside keeps both banks canonical. -/
theorem poke_wf {s : State} (h : s.ram.wf = true) (h' : s.rom.wf = true) (a : Word) (v : Byte) :
    (poke a v s).ram.wf = true ∧ (poke a v s).rom.wf = true := by
  unfold poke
  split
  · exact ⟨h, Memory.write_wf h' _ _⟩
  · exact ⟨Memory.write_wf h _ _, h'⟩

end Sys2Proof.Machine
end

