-- ==== Sys2Proof/Laws/PerInstr.lean ====
section
/-! SUPPORT. The family F: a statement on every instruction as syntax, one lemma per constructor. -/

/-- The encoding has as many bytes as the instruction's length says, from one to four (30_encoding R128). -/
def Sys2Proof.Laws.F.Statement (i : Sys2Proof.Instr) : Prop :=
  (Sys2Proof.encode i).length = i.length ∧ 1 ≤ i.length ∧ i.length ≤ 4

namespace Sys2Proof

theorem Laws.F.nop : Laws.F.Statement .nop :=
  ⟨rfl, Nat.le_of_ble_eq_true rfl, Nat.le_of_ble_eq_true rfl⟩
theorem Laws.F.exAfAf : Laws.F.Statement .exAfAf :=
  ⟨rfl, Nat.le_of_ble_eq_true rfl, Nat.le_of_ble_eq_true rfl⟩
theorem Laws.F.djnz (e : Byte) : Laws.F.Statement (.djnz e) :=
  ⟨rfl, Nat.le_of_ble_eq_true rfl, Nat.le_of_ble_eq_true rfl⟩
theorem Laws.F.jr (e : Byte) : Laws.F.Statement (.jr e) :=
  ⟨rfl, Nat.le_of_ble_eq_true rfl, Nat.le_of_ble_eq_true rfl⟩
theorem Laws.F.jrNz (e : Byte) : Laws.F.Statement (.jrNz e) :=
  ⟨rfl, Nat.le_of_ble_eq_true rfl, Nat.le_of_ble_eq_true rfl⟩
theorem Laws.F.jrZ (e : Byte) : Laws.F.Statement (.jrZ e) :=
  ⟨rfl, Nat.le_of_ble_eq_true rfl, Nat.le_of_ble_eq_true rfl⟩
theorem Laws.F.jrNc (e : Byte) : Laws.F.Statement (.jrNc e) :=
  ⟨rfl, Nat.le_of_ble_eq_true rfl, Nat.le_of_ble_eq_true rfl⟩
theorem Laws.F.jrC (e : Byte) : Laws.F.Statement (.jrC e) :=
  ⟨rfl, Nat.le_of_ble_eq_true rfl, Nat.le_of_ble_eq_true rfl⟩
theorem Laws.F.ldDdNn (dd : DD) (nn : Word) : Laws.F.Statement (.ldDdNn dd nn) :=
  ⟨rfl, Nat.le_of_ble_eq_true rfl, Nat.le_of_ble_eq_true rfl⟩
theorem Laws.F.addHlSs (ss : DD) : Laws.F.Statement (.addHlSs ss) :=
  ⟨rfl, Nat.le_of_ble_eq_true rfl, Nat.le_of_ble_eq_true rfl⟩
theorem Laws.F.ldMemBcA : Laws.F.Statement .ldMemBcA :=
  ⟨rfl, Nat.le_of_ble_eq_true rfl, Nat.le_of_ble_eq_true rfl⟩
theorem Laws.F.ldAMemBc : Laws.F.Statement .ldAMemBc :=
  ⟨rfl, Nat.le_of_ble_eq_true rfl, Nat.le_of_ble_eq_true rfl⟩
theorem Laws.F.ldMemDeA : Laws.F.Statement .ldMemDeA :=
  ⟨rfl, Nat.le_of_ble_eq_true rfl, Nat.le_of_ble_eq_true rfl⟩
theorem Laws.F.ldAMemDe : Laws.F.Statement .ldAMemDe :=
  ⟨rfl, Nat.le_of_ble_eq_true rfl, Nat.le_of_ble_eq_true rfl⟩
theorem Laws.F.ldMemNnHl (nn : Word) : Laws.F.Statement (.ldMemNnHl nn) :=
  ⟨rfl, Nat.le_of_ble_eq_true rfl, Nat.le_of_ble_eq_true rfl⟩
theorem Laws.F.ldHlMemNn (nn : Word) : Laws.F.Statement (.ldHlMemNn nn) :=
  ⟨rfl, Nat.le_of_ble_eq_true rfl, Nat.le_of_ble_eq_true rfl⟩
theorem Laws.F.ldMemNnA (nn : Word) : Laws.F.Statement (.ldMemNnA nn) :=
  ⟨rfl, Nat.le_of_ble_eq_true rfl, Nat.le_of_ble_eq_true rfl⟩
theorem Laws.F.ldAMemNn (nn : Word) : Laws.F.Statement (.ldAMemNn nn) :=
  ⟨rfl, Nat.le_of_ble_eq_true rfl, Nat.le_of_ble_eq_true rfl⟩
theorem Laws.F.incSs (ss : DD) : Laws.F.Statement (.incSs ss) :=
  ⟨rfl, Nat.le_of_ble_eq_true rfl, Nat.le_of_ble_eq_true rfl⟩
theorem Laws.F.decSs (ss : DD) : Laws.F.Statement (.decSs ss) :=
  ⟨rfl, Nat.le_of_ble_eq_true rfl, Nat.le_of_ble_eq_true rfl⟩
theorem Laws.F.incR (r : R8) : Laws.F.Statement (.incR r) :=
  ⟨rfl, Nat.le_of_ble_eq_true rfl, Nat.le_of_ble_eq_true rfl⟩
theorem Laws.F.incMemHl : Laws.F.Statement .incMemHl :=
  ⟨rfl, Nat.le_of_ble_eq_true rfl, Nat.le_of_ble_eq_true rfl⟩
theorem Laws.F.decR (r : R8) : Laws.F.Statement (.decR r) :=
  ⟨rfl, Nat.le_of_ble_eq_true rfl, Nat.le_of_ble_eq_true rfl⟩
theorem Laws.F.decMemHl : Laws.F.Statement .decMemHl :=
  ⟨rfl, Nat.le_of_ble_eq_true rfl, Nat.le_of_ble_eq_true rfl⟩
theorem Laws.F.ldRN (r : R8) (n : Byte) : Laws.F.Statement (.ldRN r n) :=
  ⟨rfl, Nat.le_of_ble_eq_true rfl, Nat.le_of_ble_eq_true rfl⟩
theorem Laws.F.ldMemHlN (n : Byte) : Laws.F.Statement (.ldMemHlN n) :=
  ⟨rfl, Nat.le_of_ble_eq_true rfl, Nat.le_of_ble_eq_true rfl⟩
theorem Laws.F.rlca : Laws.F.Statement .rlca :=
  ⟨rfl, Nat.le_of_ble_eq_true rfl, Nat.le_of_ble_eq_true rfl⟩
theorem Laws.F.rrca : Laws.F.Statement .rrca :=
  ⟨rfl, Nat.le_of_ble_eq_true rfl, Nat.le_of_ble_eq_true rfl⟩
theorem Laws.F.rla : Laws.F.Statement .rla :=
  ⟨rfl, Nat.le_of_ble_eq_true rfl, Nat.le_of_ble_eq_true rfl⟩
theorem Laws.F.rra : Laws.F.Statement .rra :=
  ⟨rfl, Nat.le_of_ble_eq_true rfl, Nat.le_of_ble_eq_true rfl⟩
theorem Laws.F.daa : Laws.F.Statement .daa :=
  ⟨rfl, Nat.le_of_ble_eq_true rfl, Nat.le_of_ble_eq_true rfl⟩
theorem Laws.F.cpl : Laws.F.Statement .cpl :=
  ⟨rfl, Nat.le_of_ble_eq_true rfl, Nat.le_of_ble_eq_true rfl⟩
theorem Laws.F.scf : Laws.F.Statement .scf :=
  ⟨rfl, Nat.le_of_ble_eq_true rfl, Nat.le_of_ble_eq_true rfl⟩
theorem Laws.F.ccf : Laws.F.Statement .ccf :=
  ⟨rfl, Nat.le_of_ble_eq_true rfl, Nat.le_of_ble_eq_true rfl⟩
theorem Laws.F.ldRR (r : R8) (r' : R8) : Laws.F.Statement (.ldRR r r') :=
  ⟨rfl, Nat.le_of_ble_eq_true rfl, Nat.le_of_ble_eq_true rfl⟩
theorem Laws.F.ldRMemHl (r : R8) : Laws.F.Statement (.ldRMemHl r) :=
  ⟨rfl, Nat.le_of_ble_eq_true rfl, Nat.le_of_ble_eq_true rfl⟩
theorem Laws.F.ldMemHlR (r : R8) : Laws.F.Statement (.ldMemHlR r) :=
  ⟨rfl, Nat.le_of_ble_eq_true rfl, Nat.le_of_ble_eq_true rfl⟩
theorem Laws.F.halt : Laws.F.Statement .halt :=
  ⟨rfl, Nat.le_of_ble_eq_true rfl, Nat.le_of_ble_eq_true rfl⟩
theorem Laws.F.addR (r : R8) : Laws.F.Statement (.addR r) :=
  ⟨rfl, Nat.le_of_ble_eq_true rfl, Nat.le_of_ble_eq_true rfl⟩
theorem Laws.F.addMemHl : Laws.F.Statement .addMemHl :=
  ⟨rfl, Nat.le_of_ble_eq_true rfl, Nat.le_of_ble_eq_true rfl⟩
theorem Laws.F.addN (n : Byte) : Laws.F.Statement (.addN n) :=
  ⟨rfl, Nat.le_of_ble_eq_true rfl, Nat.le_of_ble_eq_true rfl⟩
theorem Laws.F.adcR (r : R8) : Laws.F.Statement (.adcR r) :=
  ⟨rfl, Nat.le_of_ble_eq_true rfl, Nat.le_of_ble_eq_true rfl⟩
theorem Laws.F.adcMemHl : Laws.F.Statement .adcMemHl :=
  ⟨rfl, Nat.le_of_ble_eq_true rfl, Nat.le_of_ble_eq_true rfl⟩
theorem Laws.F.adcN (n : Byte) : Laws.F.Statement (.adcN n) :=
  ⟨rfl, Nat.le_of_ble_eq_true rfl, Nat.le_of_ble_eq_true rfl⟩
theorem Laws.F.subR (r : R8) : Laws.F.Statement (.subR r) :=
  ⟨rfl, Nat.le_of_ble_eq_true rfl, Nat.le_of_ble_eq_true rfl⟩
theorem Laws.F.subMemHl : Laws.F.Statement .subMemHl :=
  ⟨rfl, Nat.le_of_ble_eq_true rfl, Nat.le_of_ble_eq_true rfl⟩
theorem Laws.F.subN (n : Byte) : Laws.F.Statement (.subN n) :=
  ⟨rfl, Nat.le_of_ble_eq_true rfl, Nat.le_of_ble_eq_true rfl⟩
theorem Laws.F.sbcR (r : R8) : Laws.F.Statement (.sbcR r) :=
  ⟨rfl, Nat.le_of_ble_eq_true rfl, Nat.le_of_ble_eq_true rfl⟩
theorem Laws.F.sbcMemHl : Laws.F.Statement .sbcMemHl :=
  ⟨rfl, Nat.le_of_ble_eq_true rfl, Nat.le_of_ble_eq_true rfl⟩
theorem Laws.F.sbcN (n : Byte) : Laws.F.Statement (.sbcN n) :=
  ⟨rfl, Nat.le_of_ble_eq_true rfl, Nat.le_of_ble_eq_true rfl⟩
theorem Laws.F.andR (r : R8) : Laws.F.Statement (.andR r) :=
  ⟨rfl, Nat.le_of_ble_eq_true rfl, Nat.le_of_ble_eq_true rfl⟩
theorem Laws.F.andMemHl : Laws.F.Statement .andMemHl :=
  ⟨rfl, Nat.le_of_ble_eq_true rfl, Nat.le_of_ble_eq_true rfl⟩
theorem Laws.F.andN (n : Byte) : Laws.F.Statement (.andN n) :=
  ⟨rfl, Nat.le_of_ble_eq_true rfl, Nat.le_of_ble_eq_true rfl⟩
theorem Laws.F.xorR (r : R8) : Laws.F.Statement (.xorR r) :=
  ⟨rfl, Nat.le_of_ble_eq_true rfl, Nat.le_of_ble_eq_true rfl⟩
theorem Laws.F.xorMemHl : Laws.F.Statement .xorMemHl :=
  ⟨rfl, Nat.le_of_ble_eq_true rfl, Nat.le_of_ble_eq_true rfl⟩
theorem Laws.F.xorN (n : Byte) : Laws.F.Statement (.xorN n) :=
  ⟨rfl, Nat.le_of_ble_eq_true rfl, Nat.le_of_ble_eq_true rfl⟩
theorem Laws.F.orR (r : R8) : Laws.F.Statement (.orR r) :=
  ⟨rfl, Nat.le_of_ble_eq_true rfl, Nat.le_of_ble_eq_true rfl⟩
theorem Laws.F.orMemHl : Laws.F.Statement .orMemHl :=
  ⟨rfl, Nat.le_of_ble_eq_true rfl, Nat.le_of_ble_eq_true rfl⟩
theorem Laws.F.orN (n : Byte) : Laws.F.Statement (.orN n) :=
  ⟨rfl, Nat.le_of_ble_eq_true rfl, Nat.le_of_ble_eq_true rfl⟩
theorem Laws.F.cpR (r : R8) : Laws.F.Statement (.cpR r) :=
  ⟨rfl, Nat.le_of_ble_eq_true rfl, Nat.le_of_ble_eq_true rfl⟩
theorem Laws.F.cpMemHl : Laws.F.Statement .cpMemHl :=
  ⟨rfl, Nat.le_of_ble_eq_true rfl, Nat.le_of_ble_eq_true rfl⟩
theorem Laws.F.cpN (n : Byte) : Laws.F.Statement (.cpN n) :=
  ⟨rfl, Nat.le_of_ble_eq_true rfl, Nat.le_of_ble_eq_true rfl⟩
theorem Laws.F.retCc (cc : Cond) : Laws.F.Statement (.retCc cc) :=
  ⟨rfl, Nat.le_of_ble_eq_true rfl, Nat.le_of_ble_eq_true rfl⟩
theorem Laws.F.popQq (qq : QQ) : Laws.F.Statement (.popQq qq) :=
  ⟨rfl, Nat.le_of_ble_eq_true rfl, Nat.le_of_ble_eq_true rfl⟩
theorem Laws.F.ret : Laws.F.Statement .ret :=
  ⟨rfl, Nat.le_of_ble_eq_true rfl, Nat.le_of_ble_eq_true rfl⟩
theorem Laws.F.exx : Laws.F.Statement .exx :=
  ⟨rfl, Nat.le_of_ble_eq_true rfl, Nat.le_of_ble_eq_true rfl⟩
theorem Laws.F.jpHl : Laws.F.Statement .jpHl :=
  ⟨rfl, Nat.le_of_ble_eq_true rfl, Nat.le_of_ble_eq_true rfl⟩
theorem Laws.F.ldSpHl : Laws.F.Statement .ldSpHl :=
  ⟨rfl, Nat.le_of_ble_eq_true rfl, Nat.le_of_ble_eq_true rfl⟩
theorem Laws.F.jpCcNn (cc : Cond) (nn : Word) : Laws.F.Statement (.jpCcNn cc nn) :=
  ⟨rfl, Nat.le_of_ble_eq_true rfl, Nat.le_of_ble_eq_true rfl⟩
theorem Laws.F.jpNn (nn : Word) : Laws.F.Statement (.jpNn nn) :=
  ⟨rfl, Nat.le_of_ble_eq_true rfl, Nat.le_of_ble_eq_true rfl⟩
theorem Laws.F.outNA (n : Byte) : Laws.F.Statement (.outNA n) :=
  ⟨rfl, Nat.le_of_ble_eq_true rfl, Nat.le_of_ble_eq_true rfl⟩
theorem Laws.F.inAN (n : Byte) : Laws.F.Statement (.inAN n) :=
  ⟨rfl, Nat.le_of_ble_eq_true rfl, Nat.le_of_ble_eq_true rfl⟩
theorem Laws.F.exSpHl : Laws.F.Statement .exSpHl :=
  ⟨rfl, Nat.le_of_ble_eq_true rfl, Nat.le_of_ble_eq_true rfl⟩
theorem Laws.F.exDeHl : Laws.F.Statement .exDeHl :=
  ⟨rfl, Nat.le_of_ble_eq_true rfl, Nat.le_of_ble_eq_true rfl⟩
theorem Laws.F.di : Laws.F.Statement .di :=
  ⟨rfl, Nat.le_of_ble_eq_true rfl, Nat.le_of_ble_eq_true rfl⟩
theorem Laws.F.ei : Laws.F.Statement .ei :=
  ⟨rfl, Nat.le_of_ble_eq_true rfl, Nat.le_of_ble_eq_true rfl⟩
theorem Laws.F.callCcNn (cc : Cond) (nn : Word) : Laws.F.Statement (.callCcNn cc nn) :=
  ⟨rfl, Nat.le_of_ble_eq_true rfl, Nat.le_of_ble_eq_true rfl⟩
theorem Laws.F.pushQq (qq : QQ) : Laws.F.Statement (.pushQq qq) :=
  ⟨rfl, Nat.le_of_ble_eq_true rfl, Nat.le_of_ble_eq_true rfl⟩
theorem Laws.F.callNn (nn : Word) : Laws.F.Statement (.callNn nn) :=
  ⟨rfl, Nat.le_of_ble_eq_true rfl, Nat.le_of_ble_eq_true rfl⟩
theorem Laws.F.rst (t : BitVec 3) : Laws.F.Statement (.rst t) :=
  ⟨rfl, Nat.le_of_ble_eq_true rfl, Nat.le_of_ble_eq_true rfl⟩
theorem Laws.F.rlcR (r : R8) : Laws.F.Statement (.rlcR r) :=
  ⟨rfl, Nat.le_of_ble_eq_true rfl, Nat.le_of_ble_eq_true rfl⟩
theorem Laws.F.rlcMemHl : Laws.F.Statement .rlcMemHl :=
  ⟨rfl, Nat.le_of_ble_eq_true rfl, Nat.le_of_ble_eq_true rfl⟩
theorem Laws.F.rrcR (r : R8) : Laws.F.Statement (.rrcR r) :=
  ⟨rfl, Nat.le_of_ble_eq_true rfl, Nat.le_of_ble_eq_true rfl⟩
theorem Laws.F.rrcMemHl : Laws.F.Statement .rrcMemHl :=
  ⟨rfl, Nat.le_of_ble_eq_true rfl, Nat.le_of_ble_eq_true rfl⟩
theorem Laws.F.rlR (r : R8) : Laws.F.Statement (.rlR r) :=
  ⟨rfl, Nat.le_of_ble_eq_true rfl, Nat.le_of_ble_eq_true rfl⟩
theorem Laws.F.rlMemHl : Laws.F.Statement .rlMemHl :=
  ⟨rfl, Nat.le_of_ble_eq_true rfl, Nat.le_of_ble_eq_true rfl⟩
theorem Laws.F.rrR (r : R8) : Laws.F.Statement (.rrR r) :=
  ⟨rfl, Nat.le_of_ble_eq_true rfl, Nat.le_of_ble_eq_true rfl⟩
theorem Laws.F.rrMemHl : Laws.F.Statement .rrMemHl :=
  ⟨rfl, Nat.le_of_ble_eq_true rfl, Nat.le_of_ble_eq_true rfl⟩
theorem Laws.F.slaR (r : R8) : Laws.F.Statement (.slaR r) :=
  ⟨rfl, Nat.le_of_ble_eq_true rfl, Nat.le_of_ble_eq_true rfl⟩
theorem Laws.F.slaMemHl : Laws.F.Statement .slaMemHl :=
  ⟨rfl, Nat.le_of_ble_eq_true rfl, Nat.le_of_ble_eq_true rfl⟩
theorem Laws.F.sraR (r : R8) : Laws.F.Statement (.sraR r) :=
  ⟨rfl, Nat.le_of_ble_eq_true rfl, Nat.le_of_ble_eq_true rfl⟩
theorem Laws.F.sraMemHl : Laws.F.Statement .sraMemHl :=
  ⟨rfl, Nat.le_of_ble_eq_true rfl, Nat.le_of_ble_eq_true rfl⟩
theorem Laws.F.sllR (r : R8) : Laws.F.Statement (.sllR r) :=
  ⟨rfl, Nat.le_of_ble_eq_true rfl, Nat.le_of_ble_eq_true rfl⟩
theorem Laws.F.sllMemHl : Laws.F.Statement .sllMemHl :=
  ⟨rfl, Nat.le_of_ble_eq_true rfl, Nat.le_of_ble_eq_true rfl⟩
theorem Laws.F.srlR (r : R8) : Laws.F.Statement (.srlR r) :=
  ⟨rfl, Nat.le_of_ble_eq_true rfl, Nat.le_of_ble_eq_true rfl⟩
theorem Laws.F.srlMemHl : Laws.F.Statement .srlMemHl :=
  ⟨rfl, Nat.le_of_ble_eq_true rfl, Nat.le_of_ble_eq_true rfl⟩
theorem Laws.F.bitR (bit : BitVec 3) (r : R8) : Laws.F.Statement (.bitR bit r) :=
  ⟨rfl, Nat.le_of_ble_eq_true rfl, Nat.le_of_ble_eq_true rfl⟩
theorem Laws.F.bitMemHl (bit : BitVec 3) : Laws.F.Statement (.bitMemHl bit) :=
  ⟨rfl, Nat.le_of_ble_eq_true rfl, Nat.le_of_ble_eq_true rfl⟩
theorem Laws.F.resR (bit : BitVec 3) (r : R8) : Laws.F.Statement (.resR bit r) :=
  ⟨rfl, Nat.le_of_ble_eq_true rfl, Nat.le_of_ble_eq_true rfl⟩
theorem Laws.F.resMemHl (bit : BitVec 3) : Laws.F.Statement (.resMemHl bit) :=
  ⟨rfl, Nat.le_of_ble_eq_true rfl, Nat.le_of_ble_eq_true rfl⟩
theorem Laws.F.setR (bit : BitVec 3) (r : R8) : Laws.F.Statement (.setR bit r) :=
  ⟨rfl, Nat.le_of_ble_eq_true rfl, Nat.le_of_ble_eq_true rfl⟩
theorem Laws.F.setMemHl (bit : BitVec 3) : Laws.F.Statement (.setMemHl bit) :=
  ⟨rfl, Nat.le_of_ble_eq_true rfl, Nat.le_of_ble_eq_true rfl⟩
theorem Laws.F.inRC (r : R8) : Laws.F.Statement (.inRC r) :=
  ⟨rfl, Nat.le_of_ble_eq_true rfl, Nat.le_of_ble_eq_true rfl⟩
theorem Laws.F.inC : Laws.F.Statement .inC :=
  ⟨rfl, Nat.le_of_ble_eq_true rfl, Nat.le_of_ble_eq_true rfl⟩
theorem Laws.F.outCR (r : R8) : Laws.F.Statement (.outCR r) :=
  ⟨rfl, Nat.le_of_ble_eq_true rfl, Nat.le_of_ble_eq_true rfl⟩
theorem Laws.F.outC0 : Laws.F.Statement .outC0 :=
  ⟨rfl, Nat.le_of_ble_eq_true rfl, Nat.le_of_ble_eq_true rfl⟩
theorem Laws.F.sbcHlSs (ss : DD) : Laws.F.Statement (.sbcHlSs ss) :=
  ⟨rfl, Nat.le_of_ble_eq_true rfl, Nat.le_of_ble_eq_true rfl⟩
theorem Laws.F.adcHlSs (ss : DD) : Laws.F.Statement (.adcHlSs ss) :=
  ⟨rfl, Nat.le_of_ble_eq_true rfl, Nat.le_of_ble_eq_true rfl⟩
theorem Laws.F.ldMemNnDd (dd : DD) (nn : Word) : Laws.F.Statement (.ldMemNnDd dd nn) :=
  ⟨rfl, Nat.le_of_ble_eq_true rfl, Nat.le_of_ble_eq_true rfl⟩
theorem Laws.F.ldDdMemNn (dd : DD) (nn : Word) : Laws.F.Statement (.ldDdMemNn dd nn) :=
  ⟨rfl, Nat.le_of_ble_eq_true rfl, Nat.le_of_ble_eq_true rfl⟩
theorem Laws.F.neg (u : BitVec 3) : Laws.F.Statement (.neg u) :=
  ⟨rfl, Nat.le_of_ble_eq_true rfl, Nat.le_of_ble_eq_true rfl⟩
theorem Laws.F.reti : Laws.F.Statement .reti :=
  ⟨rfl, Nat.le_of_ble_eq_true rfl, Nat.le_of_ble_eq_true rfl⟩
theorem Laws.F.retn (u : BitVec 3) : Laws.F.Statement (.retn u) :=
  ⟨rfl, Nat.le_of_ble_eq_true rfl, Nat.le_of_ble_eq_true rfl⟩
theorem Laws.F.im0 (u : BitVec 1) (v : BitVec 1) : Laws.F.Statement (.im0 u v) :=
  ⟨rfl, Nat.le_of_ble_eq_true rfl, Nat.le_of_ble_eq_true rfl⟩
theorem Laws.F.im1 (u : BitVec 1) : Laws.F.Statement (.im1 u) :=
  ⟨rfl, Nat.le_of_ble_eq_true rfl, Nat.le_of_ble_eq_true rfl⟩
theorem Laws.F.im2 (u : BitVec 1) : Laws.F.Statement (.im2 u) :=
  ⟨rfl, Nat.le_of_ble_eq_true rfl, Nat.le_of_ble_eq_true rfl⟩
theorem Laws.F.ldIA : Laws.F.Statement .ldIA :=
  ⟨rfl, Nat.le_of_ble_eq_true rfl, Nat.le_of_ble_eq_true rfl⟩
theorem Laws.F.ldRA : Laws.F.Statement .ldRA :=
  ⟨rfl, Nat.le_of_ble_eq_true rfl, Nat.le_of_ble_eq_true rfl⟩
theorem Laws.F.ldAI : Laws.F.Statement .ldAI :=
  ⟨rfl, Nat.le_of_ble_eq_true rfl, Nat.le_of_ble_eq_true rfl⟩
theorem Laws.F.ldAR : Laws.F.Statement .ldAR :=
  ⟨rfl, Nat.le_of_ble_eq_true rfl, Nat.le_of_ble_eq_true rfl⟩
theorem Laws.F.rrd : Laws.F.Statement .rrd :=
  ⟨rfl, Nat.le_of_ble_eq_true rfl, Nat.le_of_ble_eq_true rfl⟩
theorem Laws.F.rld : Laws.F.Statement .rld :=
  ⟨rfl, Nat.le_of_ble_eq_true rfl, Nat.le_of_ble_eq_true rfl⟩
theorem Laws.F.nopEd7 (u : BitVec 1) : Laws.F.Statement (.nopEd7 u) :=
  ⟨rfl, Nat.le_of_ble_eq_true rfl, Nat.le_of_ble_eq_true rfl⟩
theorem Laws.F.nopEd0 (x : BitVec 6) : Laws.F.Statement (.nopEd0 x) :=
  ⟨rfl, Nat.le_of_ble_eq_true rfl, Nat.le_of_ble_eq_true rfl⟩
theorem Laws.F.nopEd8 (x : BitVec 5) : Laws.F.Statement (.nopEd8 x) :=
  ⟨rfl, Nat.le_of_ble_eq_true rfl, Nat.le_of_ble_eq_true rfl⟩
theorem Laws.F.nopEdA (x : BitVec 2) (x' : BitVec 2) : Laws.F.Statement (.nopEdA x x') :=
  ⟨rfl, Nat.le_of_ble_eq_true rfl, Nat.le_of_ble_eq_true rfl⟩
theorem Laws.F.nopEdC (x : BitVec 6) : Laws.F.Statement (.nopEdC x) :=
  ⟨rfl, Nat.le_of_ble_eq_true rfl, Nat.le_of_ble_eq_true rfl⟩
theorem Laws.F.ldi : Laws.F.Statement .ldi :=
  ⟨rfl, Nat.le_of_ble_eq_true rfl, Nat.le_of_ble_eq_true rfl⟩
theorem Laws.F.cpi : Laws.F.Statement .cpi :=
  ⟨rfl, Nat.le_of_ble_eq_true rfl, Nat.le_of_ble_eq_true rfl⟩
theorem Laws.F.ini : Laws.F.Statement .ini :=
  ⟨rfl, Nat.le_of_ble_eq_true rfl, Nat.le_of_ble_eq_true rfl⟩
theorem Laws.F.outi : Laws.F.Statement .outi :=
  ⟨rfl, Nat.le_of_ble_eq_true rfl, Nat.le_of_ble_eq_true rfl⟩
theorem Laws.F.ldd : Laws.F.Statement .ldd :=
  ⟨rfl, Nat.le_of_ble_eq_true rfl, Nat.le_of_ble_eq_true rfl⟩
theorem Laws.F.cpd : Laws.F.Statement .cpd :=
  ⟨rfl, Nat.le_of_ble_eq_true rfl, Nat.le_of_ble_eq_true rfl⟩
theorem Laws.F.ind : Laws.F.Statement .ind :=
  ⟨rfl, Nat.le_of_ble_eq_true rfl, Nat.le_of_ble_eq_true rfl⟩
theorem Laws.F.outd : Laws.F.Statement .outd :=
  ⟨rfl, Nat.le_of_ble_eq_true rfl, Nat.le_of_ble_eq_true rfl⟩
theorem Laws.F.ldir : Laws.F.Statement .ldir :=
  ⟨rfl, Nat.le_of_ble_eq_true rfl, Nat.le_of_ble_eq_true rfl⟩
theorem Laws.F.cpir : Laws.F.Statement .cpir :=
  ⟨rfl, Nat.le_of_ble_eq_true rfl, Nat.le_of_ble_eq_true rfl⟩
theorem Laws.F.inir : Laws.F.Statement .inir :=
  ⟨rfl, Nat.le_of_ble_eq_true rfl, Nat.le_of_ble_eq_true rfl⟩
theorem Laws.F.otir : Laws.F.Statement .otir :=
  ⟨rfl, Nat.le_of_ble_eq_true rfl, Nat.le_of_ble_eq_true rfl⟩
theorem Laws.F.lddr : Laws.F.Statement .lddr :=
  ⟨rfl, Nat.le_of_ble_eq_true rfl, Nat.le_of_ble_eq_true rfl⟩
theorem Laws.F.cpdr : Laws.F.Statement .cpdr :=
  ⟨rfl, Nat.le_of_ble_eq_true rfl, Nat.le_of_ble_eq_true rfl⟩
theorem Laws.F.indr : Laws.F.Statement .indr :=
  ⟨rfl, Nat.le_of_ble_eq_true rfl, Nat.le_of_ble_eq_true rfl⟩
theorem Laws.F.otdr : Laws.F.Statement .otdr :=
  ⟨rfl, Nat.le_of_ble_eq_true rfl, Nat.le_of_ble_eq_true rfl⟩
theorem Laws.F.addXyPp (xy : XY) (pp : PP) : Laws.F.Statement (.addXyPp xy pp) :=
  ⟨rfl, Nat.le_of_ble_eq_true rfl, Nat.le_of_ble_eq_true rfl⟩
theorem Laws.F.ldXyNn (xy : XY) (nn : Word) : Laws.F.Statement (.ldXyNn xy nn) :=
  ⟨rfl, Nat.le_of_ble_eq_true rfl, Nat.le_of_ble_eq_true rfl⟩
theorem Laws.F.ldMemNnXy (xy : XY) (nn : Word) : Laws.F.Statement (.ldMemNnXy xy nn) :=
  ⟨rfl, Nat.le_of_ble_eq_true rfl, Nat.le_of_ble_eq_true rfl⟩
theorem Laws.F.incXy (xy : XY) : Laws.F.Statement (.incXy xy) :=
  ⟨rfl, Nat.le_of_ble_eq_true rfl, Nat.le_of_ble_eq_true rfl⟩
theorem Laws.F.incXyHalf (xy : XY) (j : Half) : Laws.F.Statement (.incXyHalf xy j) :=
  ⟨rfl, Nat.le_of_ble_eq_true rfl, Nat.le_of_ble_eq_true rfl⟩
theorem Laws.F.decXyHalf (xy : XY) (j : Half) : Laws.F.Statement (.decXyHalf xy j) :=
  ⟨rfl, Nat.le_of_ble_eq_true rfl, Nat.le_of_ble_eq_true rfl⟩
theorem Laws.F.ldXyHalfN (xy : XY) (j : Half) (n : Byte) : Laws.F.Statement (.ldXyHalfN xy j n) :=
  ⟨rfl, Nat.le_of_ble_eq_true rfl, Nat.le_of_ble_eq_true rfl⟩
theorem Laws.F.ldXyMemNn (xy : XY) (nn : Word) : Laws.F.Statement (.ldXyMemNn xy nn) :=
  ⟨rfl, Nat.le_of_ble_eq_true rfl, Nat.le_of_ble_eq_true rfl⟩
theorem Laws.F.decXy (xy : XY) : Laws.F.Statement (.decXy xy) :=
  ⟨rfl, Nat.le_of_ble_eq_true rfl, Nat.le_of_ble_eq_true rfl⟩
theorem Laws.F.incMemXy (xy : XY) (d : Byte) : Laws.F.Statement (.incMemXy xy d) :=
  ⟨rfl, Nat.le_of_ble_eq_true rfl, Nat.le_of_ble_eq_true rfl⟩
theorem Laws.F.decMemXy (xy : XY) (d : Byte) : Laws.F.Statement (.decMemXy xy d) :=
  ⟨rfl, Nat.le_of_ble_eq_true rfl, Nat.le_of_ble_eq_true rfl⟩
theorem Laws.F.ldMemXyN (xy : XY) (d : Byte) (n : Byte) : Laws.F.Statement (.ldMemXyN xy d n) :=
  ⟨rfl, Nat.le_of_ble_eq_true rfl, Nat.le_of_ble_eq_true rfl⟩
theorem Laws.F.ldRMemXy (xy : XY) (r : R8) (d : Byte) : Laws.F.Statement (.ldRMemXy xy r d) :=
  ⟨rfl, Nat.le_of_ble_eq_true rfl, Nat.le_of_ble_eq_true rfl⟩
theorem Laws.F.ldMemXyR (xy : XY) (r : R8) (d : Byte) : Laws.F.Statement (.ldMemXyR xy r d) :=
  ⟨rfl, Nat.le_of_ble_eq_true rfl, Nat.le_of_ble_eq_true rfl⟩
theorem Laws.F.ldPP (xy : XY) (p : P8) (p' : P8) : Laws.F.Statement (.ldPP xy p p') :=
  ⟨rfl, Nat.le_of_ble_eq_true rfl, Nat.le_of_ble_eq_true rfl⟩
theorem Laws.F.addMemXy (xy : XY) (d : Byte) : Laws.F.Statement (.addMemXy xy d) :=
  ⟨rfl, Nat.le_of_ble_eq_true rfl, Nat.le_of_ble_eq_true rfl⟩
theorem Laws.F.addXyHalf (xy : XY) (j : Half) : Laws.F.Statement (.addXyHalf xy j) :=
  ⟨rfl, Nat.le_of_ble_eq_true rfl, Nat.le_of_ble_eq_true rfl⟩
theorem Laws.F.adcMemXy (xy : XY) (d : Byte) : Laws.F.Statement (.adcMemXy xy d) :=
  ⟨rfl, Nat.le_of_ble_eq_true rfl, Nat.le_of_ble_eq_true rfl⟩
theorem Laws.F.adcXyHalf (xy : XY) (j : Half) : Laws.F.Statement (.adcXyHalf xy j) :=
  ⟨rfl, Nat.le_of_ble_eq_true rfl, Nat.le_of_ble_eq_true rfl⟩
theorem Laws.F.subMemXy (xy : XY) (d : Byte) : Laws.F.Statement (.subMemXy xy d) :=
  ⟨rfl, Nat.le_of_ble_eq_true rfl, Nat.le_of_ble_eq_true rfl⟩
theorem Laws.F.subXyHalf (xy : XY) (j : Half) : Laws.F.Statement (.subXyHalf xy j) :=
  ⟨rfl, Nat.le_of_ble_eq_true rfl, Nat.le_of_ble_eq_true rfl⟩
theorem Laws.F.sbcMemXy (xy : XY) (d : Byte) : Laws.F.Statement (.sbcMemXy xy d) :=
  ⟨rfl, Nat.le_of_ble_eq_true rfl, Nat.le_of_ble_eq_true rfl⟩
theorem Laws.F.sbcXyHalf (xy : XY) (j : Half) : Laws.F.Statement (.sbcXyHalf xy j) :=
  ⟨rfl, Nat.le_of_ble_eq_true rfl, Nat.le_of_ble_eq_true rfl⟩
theorem Laws.F.andMemXy (xy : XY) (d : Byte) : Laws.F.Statement (.andMemXy xy d) :=
  ⟨rfl, Nat.le_of_ble_eq_true rfl, Nat.le_of_ble_eq_true rfl⟩
theorem Laws.F.andXyHalf (xy : XY) (j : Half) : Laws.F.Statement (.andXyHalf xy j) :=
  ⟨rfl, Nat.le_of_ble_eq_true rfl, Nat.le_of_ble_eq_true rfl⟩
theorem Laws.F.xorMemXy (xy : XY) (d : Byte) : Laws.F.Statement (.xorMemXy xy d) :=
  ⟨rfl, Nat.le_of_ble_eq_true rfl, Nat.le_of_ble_eq_true rfl⟩
theorem Laws.F.xorXyHalf (xy : XY) (j : Half) : Laws.F.Statement (.xorXyHalf xy j) :=
  ⟨rfl, Nat.le_of_ble_eq_true rfl, Nat.le_of_ble_eq_true rfl⟩
theorem Laws.F.orMemXy (xy : XY) (d : Byte) : Laws.F.Statement (.orMemXy xy d) :=
  ⟨rfl, Nat.le_of_ble_eq_true rfl, Nat.le_of_ble_eq_true rfl⟩
theorem Laws.F.orXyHalf (xy : XY) (j : Half) : Laws.F.Statement (.orXyHalf xy j) :=
  ⟨rfl, Nat.le_of_ble_eq_true rfl, Nat.le_of_ble_eq_true rfl⟩
theorem Laws.F.cpMemXy (xy : XY) (d : Byte) : Laws.F.Statement (.cpMemXy xy d) :=
  ⟨rfl, Nat.le_of_ble_eq_true rfl, Nat.le_of_ble_eq_true rfl⟩
theorem Laws.F.cpXyHalf (xy : XY) (j : Half) : Laws.F.Statement (.cpXyHalf xy j) :=
  ⟨rfl, Nat.le_of_ble_eq_true rfl, Nat.le_of_ble_eq_true rfl⟩
theorem Laws.F.popXy (xy : XY) : Laws.F.Statement (.popXy xy) :=
  ⟨rfl, Nat.le_of_ble_eq_true rfl, Nat.le_of_ble_eq_true rfl⟩
theorem Laws.F.exSpXy (xy : XY) : Laws.F.Statement (.exSpXy xy) :=
  ⟨rfl, Nat.le_of_ble_eq_true rfl, Nat.le_of_ble_eq_true rfl⟩
theorem Laws.F.pushXy (xy : XY) : Laws.F.Statement (.pushXy xy) :=
  ⟨rfl, Nat.le_of_ble_eq_true rfl, Nat.le_of_ble_eq_true rfl⟩
theorem Laws.F.jpXy (xy : XY) : Laws.F.Statement (.jpXy xy) :=
  ⟨rfl, Nat.le_of_ble_eq_true rfl, Nat.le_of_ble_eq_true rfl⟩
theorem Laws.F.ldSpXy (xy : XY) : Laws.F.Statement (.ldSpXy xy) :=
  ⟨rfl, Nat.le_of_ble_eq_true rfl, Nat.le_of_ble_eq_true rfl⟩
theorem Laws.F.rlcMemXy (xy : XY) (d : Byte) : Laws.F.Statement (.rlcMemXy xy d) :=
  ⟨rfl, Nat.le_of_ble_eq_true rfl, Nat.le_of_ble_eq_true rfl⟩
theorem Laws.F.rlcMemXyR (xy : XY) (d : Byte) (r : R8) : Laws.F.Statement (.rlcMemXyR xy d r) :=
  ⟨rfl, Nat.le_of_ble_eq_true rfl, Nat.le_of_ble_eq_true rfl⟩
theorem Laws.F.rrcMemXy (xy : XY) (d : Byte) : Laws.F.Statement (.rrcMemXy xy d) :=
  ⟨rfl, Nat.le_of_ble_eq_true rfl, Nat.le_of_ble_eq_true rfl⟩
theorem Laws.F.rrcMemXyR (xy : XY) (d : Byte) (r : R8) : Laws.F.Statement (.rrcMemXyR xy d r) :=
  ⟨rfl, Nat.le_of_ble_eq_true rfl, Nat.le_of_ble_eq_true rfl⟩
theorem Laws.F.rlMemXy (xy : XY) (d : Byte) : Laws.F.Statement (.rlMemXy xy d) :=
  ⟨rfl, Nat.le_of_ble_eq_true rfl, Nat.le_of_ble_eq_true rfl⟩
theorem Laws.F.rlMemXyR (xy : XY) (d : Byte) (r : R8) : Laws.F.Statement (.rlMemXyR xy d r) :=
  ⟨rfl, Nat.le_of_ble_eq_true rfl, Nat.le_of_ble_eq_true rfl⟩
theorem Laws.F.rrMemXy (xy : XY) (d : Byte) : Laws.F.Statement (.rrMemXy xy d) :=
  ⟨rfl, Nat.le_of_ble_eq_true rfl, Nat.le_of_ble_eq_true rfl⟩
theorem Laws.F.rrMemXyR (xy : XY) (d : Byte) (r : R8) : Laws.F.Statement (.rrMemXyR xy d r) :=
  ⟨rfl, Nat.le_of_ble_eq_true rfl, Nat.le_of_ble_eq_true rfl⟩
theorem Laws.F.slaMemXy (xy : XY) (d : Byte) : Laws.F.Statement (.slaMemXy xy d) :=
  ⟨rfl, Nat.le_of_ble_eq_true rfl, Nat.le_of_ble_eq_true rfl⟩
theorem Laws.F.slaMemXyR (xy : XY) (d : Byte) (r : R8) : Laws.F.Statement (.slaMemXyR xy d r) :=
  ⟨rfl, Nat.le_of_ble_eq_true rfl, Nat.le_of_ble_eq_true rfl⟩
theorem Laws.F.sraMemXy (xy : XY) (d : Byte) : Laws.F.Statement (.sraMemXy xy d) :=
  ⟨rfl, Nat.le_of_ble_eq_true rfl, Nat.le_of_ble_eq_true rfl⟩
theorem Laws.F.sraMemXyR (xy : XY) (d : Byte) (r : R8) : Laws.F.Statement (.sraMemXyR xy d r) :=
  ⟨rfl, Nat.le_of_ble_eq_true rfl, Nat.le_of_ble_eq_true rfl⟩
theorem Laws.F.sllMemXy (xy : XY) (d : Byte) : Laws.F.Statement (.sllMemXy xy d) :=
  ⟨rfl, Nat.le_of_ble_eq_true rfl, Nat.le_of_ble_eq_true rfl⟩
theorem Laws.F.sllMemXyR (xy : XY) (d : Byte) (r : R8) : Laws.F.Statement (.sllMemXyR xy d r) :=
  ⟨rfl, Nat.le_of_ble_eq_true rfl, Nat.le_of_ble_eq_true rfl⟩
theorem Laws.F.srlMemXy (xy : XY) (d : Byte) : Laws.F.Statement (.srlMemXy xy d) :=
  ⟨rfl, Nat.le_of_ble_eq_true rfl, Nat.le_of_ble_eq_true rfl⟩
theorem Laws.F.srlMemXyR (xy : XY) (d : Byte) (r : R8) : Laws.F.Statement (.srlMemXyR xy d r) :=
  ⟨rfl, Nat.le_of_ble_eq_true rfl, Nat.le_of_ble_eq_true rfl⟩
theorem Laws.F.bitMemXy (xy : XY) (bit : BitVec 3) (d : Byte) (z : BitVec 3) : Laws.F.Statement (.bitMemXy xy bit d z) :=
  ⟨rfl, Nat.le_of_ble_eq_true rfl, Nat.le_of_ble_eq_true rfl⟩
theorem Laws.F.resMemXy (xy : XY) (bit : BitVec 3) (d : Byte) : Laws.F.Statement (.resMemXy xy bit d) :=
  ⟨rfl, Nat.le_of_ble_eq_true rfl, Nat.le_of_ble_eq_true rfl⟩
theorem Laws.F.resMemXyR (xy : XY) (bit : BitVec 3) (d : Byte) (r : R8) : Laws.F.Statement (.resMemXyR xy bit d r) :=
  ⟨rfl, Nat.le_of_ble_eq_true rfl, Nat.le_of_ble_eq_true rfl⟩
theorem Laws.F.setMemXy (xy : XY) (bit : BitVec 3) (d : Byte) : Laws.F.Statement (.setMemXy xy bit d) :=
  ⟨rfl, Nat.le_of_ble_eq_true rfl, Nat.le_of_ble_eq_true rfl⟩
theorem Laws.F.setMemXyR (xy : XY) (bit : BitVec 3) (d : Byte) (r : R8) : Laws.F.Statement (.setMemXyR xy bit d r) :=
  ⟨rfl, Nat.le_of_ble_eq_true rfl, Nat.le_of_ble_eq_true rfl⟩
theorem Laws.F.noni (xy : XY) : Laws.F.Statement (.noni xy) :=
  ⟨rfl, Nat.le_of_ble_eq_true rfl, Nat.le_of_ble_eq_true rfl⟩

end Sys2Proof
end

