-- ==== Sys2Proof/Tests/Slice0.lean ====
section
/-! SUPPORT. Tests. Expected results come from the spec: encodings from the encoding lines of the instruction rules,
single steps from the vectors of 95_test_vectors.md (their ids stand in the names), ill-formed terms from the
constraints of the opcode table. Every obligation with hypotheses has a witness here. -/

open Sys2Proof Sys2Proof.Machine

/-- The default start state of the spec's vectors (95_test_vectors section 0). -/
def Tests.zero : State :=
  { State.reset with
    a := 0, f := 0, b := 0, c := 0, d := 0, e := 0, h := 0, l := 0
    a' := 0, f' := 0, b' := 0, c' := 0, d' := 0, e' := 0, h' := 0, l' := 0
    ix := 0, iy := 0, memptr := 0, pc := 0x8000, drive := .single }

/-- The vectors' default start state on the model with paging. -/
def Tests.zero128 : State := { Tests.zero with cfg := { Config.default with model := .m128 } }

/-- What is seen of the state after one step on the bytes at PC. -/
def Tests.run {α : Type} (bs : List Byte) (s : State) (look : State → α) : Option α :=
  match step (pokeAll s.pc bs s) with
  | .next t => some (look t)
  | _ => none

/-- What the decoder answers, as data that can be compared. -/
def Tests.read (bs : List Byte) : Option (Instr × List Byte) :=
  match decode bs with
  | .ok r => some r
  | .error _ => none

open Tests

/-! ### Well-formedness: each check refuses an ill-formed term -/

/-- `LD p,p'` with no half of the index register is no row of the table (40_load8 R168). -/
theorem test_wellFormed_ldPP :
    (Instr.ldPP .ix .b .c).WellFormed = false ∧ (Instr.ldPP .ix .xyh .c).WellFormed = true ∧
      (Instr.ldPP .iy .b .xyl).WellFormed = true := by decide

/-- The RETN copy with field 1 is RETI (30_encoding R126). -/
theorem test_wellFormed_retn :
    (Instr.retn 1).WellFormed = false ∧ (Instr.retn 0).WellFormed = true := by decide

/-! ### Decoding: a word per constructor, written out from the encoding lines -/

theorem test_decode_load8 :
    ([
    ([0b00000010], .ldMemBcA, []),
    ([0b00001010], .ldAMemBc, []),
    ([0b00010010], .ldMemDeA, []),
    ([0b00011010], .ldAMemDe, []),
    ([0b00110010, 0b01101000, 0b10000101], .ldMemNnA 0x8568, []),
    ([0b00111010, 0b01010111, 0b10100100], .ldAMemNn 0xA457, []),
    ([0b00001110, 0b01110100], .ldRN .c 0x74, []),
    ([0b00110110, 0b10111101], .ldMemHlN 0xBD, []),
    ([0b01011001], .ldRR .e .c, []),
    ([0b01111110], .ldRMemHl .a, []),
    ([0b01110100], .ldMemHlR .h, []),
    ([0b11101101, 0b01000111], .ldIA, []),
    ([0b11101101, 0b01001111], .ldRA, []),
    ([0b11101101, 0b01010111], .ldAI, []),
    ([0b11101101, 0b01011111], .ldAR, []),
    ([0b11111101, 0b00100110, 0b01101000], .ldXyHalfN .iy .hi 0x68, []),
    ([0b11011101, 0b00110110, 0b11111001, 0b01000010], .ldMemXyN .ix 0xF9 0x42, []),
    ([0b11011101, 0b01011110, 0b00011101], .ldRMemXy .ix .e 0x1D, []),
    ([0b11111101, 0b01110100, 0b11111000], .ldMemXyR .iy .h 0xF8, []),
    ([0b11111101, 0b01100101], .ldPP .iy .xyh .xyl, [])
    ] : List (List Byte × Instr × List Byte)).all (fun x => read x.1 == some x.2) = true := by decide

theorem test_decode_load16 :
    ([
    ([0b00000001, 0b10101100, 0b00001001], .ldDdNn .bc 0x09AC, []),
    ([0b00100010, 0b10001010, 0b01000111], .ldMemNnHl 0x478A, []),
    ([0b00101010, 0b01111001, 0b01100110], .ldHlMemNn 0x6679, []),
    ([0b11000001], .popQq .bc, []),
    ([0b11111001], .ldSpHl, []),
    ([0b11010101], .pushQq .de, []),
    ([0b11101101, 0b01000011, 0b00111001, 0b00100010], .ldMemNnDd .bc 0x2239, []),
    ([0b11101101, 0b01101011, 0b00010111, 0b01100000], .ldDdMemNn .hl 0x6017, []),
    ([0b11111101, 0b00100001, 0b00000111, 0b01001111], .ldXyNn .iy 0x4F07, []),
    ([0b11111101, 0b00100010, 0b11100101, 0b10001100], .ldMemNnXy .iy 0x8CE5, []),
    ([0b11011101, 0b00101010, 0b00111011, 0b11000010], .ldXyMemNn .ix 0xC23B, []),
    ([0b11111101, 0b11100001], .popXy .iy, []),
    ([0b11111101, 0b11100101], .pushXy .iy, []),
    ([0b11111101, 0b11111001], .ldSpXy .iy, [])
    ] : List (List Byte × Instr × List Byte)).all (fun x => read x.1 == some x.2) = true := by decide

theorem test_decode_exchange :
    ([
    ([0b00001000], .exAfAf, []),
    ([0b11011001], .exx, []),
    ([0b11100011], .exSpHl, []),
    ([0b11101011], .exDeHl, []),
    ([0b11101101, 0b10100000], .ldi, []),
    ([0b11101101, 0b10100001], .cpi, []),
    ([0b11101101, 0b10101000], .ldd, []),
    ([0b11101101, 0b10101001], .cpd, []),
    ([0b11101101, 0b10110000], .ldir, []),
    ([0b11101101, 0b10110001], .cpir, []),
    ([0b11101101, 0b10111000], .lddr, []),
    ([0b11101101, 0b10111001], .cpdr, []),
    ([0b11011101, 0b11100011], .exSpXy .ix, [])
    ] : List (List Byte × Instr × List Byte)).all (fun x => read x.1 == some x.2) = true := by decide

theorem test_decode_arith8_1 :
    ([
    ([0b00101100], .incR .l, []),
    ([0b00110100], .incMemHl, []),
    ([0b00011101], .decR .e, []),
    ([0b00110101], .decMemHl, []),
    ([0b10000010], .addR .d, []),
    ([0b10000110], .addMemHl, []),
    ([0b11000110, 0b01110011], .addN 0x73, []),
    ([0b10001101], .adcR .l, []),
    ([0b10001110], .adcMemHl, []),
    ([0b11001110, 0b00000101], .adcN 0x05, []),
    ([0b10010010], .subR .d, []),
    ([0b10010110], .subMemHl, []),
    ([0b11010110, 0b10010111], .subN 0x97, []),
    ([0b10011101], .sbcR .l, []),
    ([0b10011110], .sbcMemHl, []),
    ([0b11011110, 0b00101001], .sbcN 0x29, []),
    ([0b10100001], .andR .c, []),
    ([0b10100110], .andMemHl, []),
    ([0b11100110, 0b10111011], .andN 0xBB, []),
    ([0b10101101], .xorR .l, []),
    ([0b10101110], .xorMemHl, []),
    ([0b11101110, 0b01001101], .xorN 0x4D, []),
    ([0b10110001], .orR .c, []),
    ([0b10110110], .orMemHl, []),
    ([0b11110110, 0b11011111], .orN 0xDF, []),
    ([0b10111100], .cpR .h, []),
    ([0b10111110], .cpMemHl, []),
    ([0b11111110, 0b01110001], .cpN 0x71, []),
    ([0b11011101, 0b00100100], .incXyHalf .ix .hi, []),
    ([0b11111101, 0b00100101], .decXyHalf .iy .hi, [])
    ] : List (List Byte × Instr × List Byte)).all (fun x => read x.1 == some x.2) = true := by decide

theorem test_decode_arith8_2 :
    ([
    ([0b11011101, 0b00110100, 0b11010101], .incMemXy .ix 0xD5, []),
    ([0b11011101, 0b00110101, 0b01100111], .decMemXy .ix 0x67, []),
    ([0b11011101, 0b10000110, 0b01100101], .addMemXy .ix 0x65, []),
    ([0b11011101, 0b10000100], .addXyHalf .ix .hi, []),
    ([0b11111101, 0b10001110, 0b10001001], .adcMemXy .iy 0x89, []),
    ([0b11111101, 0b10001100], .adcXyHalf .iy .hi, []),
    ([0b11111101, 0b10010110, 0b10101101], .subMemXy .iy 0xAD, []),
    ([0b11011101, 0b10010101], .subXyHalf .ix .lo, []),
    ([0b11011101, 0b10011110, 0b11010001], .sbcMemXy .ix 0xD1, []),
    ([0b11011101, 0b10011101], .sbcXyHalf .ix .lo, []),
    ([0b11011101, 0b10100110, 0b11110101], .andMemXy .ix 0xF5, []),
    ([0b11111101, 0b10100100], .andXyHalf .iy .hi, []),
    ([0b11111101, 0b10101110, 0b00011001], .xorMemXy .iy 0x19, []),
    ([0b11111101, 0b10101100], .xorXyHalf .iy .hi, []),
    ([0b11011101, 0b10110110, 0b00111101], .orMemXy .ix 0x3D, []),
    ([0b11011101, 0b10110101], .orXyHalf .ix .lo, []),
    ([0b11011101, 0b10111110, 0b01100001], .cpMemXy .ix 0x61, []),
    ([0b11011101, 0b10111100], .cpXyHalf .ix .hi, [])
    ] : List (List Byte × Instr × List Byte)).all (fun x => read x.1 == some x.2) = true := by decide

theorem test_decode_general :
    ([
    ([0b00000000], .nop, []),
    ([0b00100111], .daa, []),
    ([0b00101111], .cpl, []),
    ([0b00110111], .scf, []),
    ([0b00111111], .ccf, []),
    ([0b01110110], .halt, []),
    ([0b11110011], .di, []),
    ([0b11111011], .ei, []),
    ([0b11101101, 0b01000100], .neg 0, []),
    ([0b11101101, 0b01001110], .im0 0 1, []),
    ([0b11101101, 0b01010110], .im1 0, []),
    ([0b11101101, 0b01111110], .im2 1, []),
    ([0b11101101, 0b01110111], .nopEd7 0, []),
    ([0b11101101, 0b00101011], .nopEd0 43, []),
    ([0b11101101, 0b10010000], .nopEd8 16, []),
    ([0b11101101, 0b10101110], .nopEdA 1 2, []),
    ([0b11101101, 0b11111111], .nopEdC 63, []),
    ([0b11111101, 0b00000000], .noni .iy, [0x00])
    ] : List (List Byte × Instr × List Byte)).all (fun x => read x.1 == some x.2) = true := by decide

theorem test_decode_arith16 :
    ([
    ([0b00101001], .addHlSs .hl, []),
    ([0b00000011], .incSs .bc, []),
    ([0b00011011], .decSs .de, []),
    ([0b11101101, 0b01100010], .sbcHlSs .hl, []),
    ([0b11101101, 0b01111010], .adcHlSs .sp, []),
    ([0b11011101, 0b00001001], .addXyPp .ix .bc, []),
    ([0b11111101, 0b00100011], .incXy .iy, []),
    ([0b11111101, 0b00101011], .decXy .iy, [])
    ] : List (List Byte × Instr × List Byte)).all (fun x => read x.1 == some x.2) = true := by decide

theorem test_decode_rotate_1 :
    ([
    ([0b00000111], .rlca, []),
    ([0b00001111], .rrca, []),
    ([0b00010111], .rla, []),
    ([0b00011111], .rra, []),
    ([0b11001011, 0b00000111], .rlcR .a, []),
    ([0b11001011, 0b00000110], .rlcMemHl, []),
    ([0b11001011, 0b00001100], .rrcR .h, []),
    ([0b11001011, 0b00001110], .rrcMemHl, []),
    ([0b11001011, 0b00010010], .rlR .d, []),
    ([0b11001011, 0b00010110], .rlMemHl, []),
    ([0b11001011, 0b00011001], .rrR .c, []),
    ([0b11001011, 0b00011110], .rrMemHl, []),
    ([0b11001011, 0b00100111], .slaR .a, []),
    ([0b11001011, 0b00100110], .slaMemHl, []),
    ([0b11001011, 0b00101100], .sraR .h, []),
    ([0b11001011, 0b00101110], .sraMemHl, []),
    ([0b11001011, 0b00110010], .sllR .d, []),
    ([0b11001011, 0b00110110], .sllMemHl, []),
    ([0b11001011, 0b00111000], .srlR .b, []),
    ([0b11001011, 0b00111110], .srlMemHl, []),
    ([0b11101101, 0b01100111], .rrd, []),
    ([0b11101101, 0b01101111], .rld, []),
    ([0b11011101, 0b11001011, 0b11110010, 0b00000110], .rlcMemXy .ix 0xF2, []),
    ([0b11111101, 0b11001011, 0b10000100, 0b00000011], .rlcMemXyR .iy 0x84 .e, []),
    ([0b11011101, 0b11001011, 0b01011111, 0b00001110], .rrcMemXy .ix 0x5F, []),
    ([0b11011101, 0b11001011, 0b11110001, 0b00001001], .rrcMemXyR .ix 0xF1 .c, []),
    ([0b11011101, 0b11001011, 0b11001100, 0b00010110], .rlMemXy .ix 0xCC, []),
    ([0b11011101, 0b11001011, 0b01011110, 0b00010101], .rlMemXyR .ix 0x5E .l, []),
    ([0b11011101, 0b11001011, 0b00111001, 0b00011110], .rrMemXy .ix 0x39, []),
    ([0b11011101, 0b11001011, 0b11001011, 0b00011011], .rrMemXyR .ix 0xCB .e, [])
    ] : List (List Byte × Instr × List Byte)).all (fun x => read x.1 == some x.2) = true := by decide

theorem test_decode_rotate_2 :
    ([
    ([0b11111101, 0b11001011, 0b10100110, 0b00100110], .slaMemXy .iy 0xA6, []),
    ([0b11011101, 0b11001011, 0b00111000, 0b00100001], .slaMemXyR .ix 0x38 .c, []),
    ([0b11111101, 0b11001011, 0b00010011, 0b00101110], .sraMemXy .iy 0x13, []),
    ([0b11111101, 0b11001011, 0b10100101, 0b00101111], .sraMemXyR .iy 0xA5 .a, []),
    ([0b11111101, 0b11001011, 0b10000000, 0b00110110], .sllMemXy .iy 0x80, []),
    ([0b11111101, 0b11001011, 0b00010010, 0b00110011], .sllMemXyR .iy 0x12 .e, []),
    ([0b11011101, 0b11001011, 0b11101101, 0b00111110], .srlMemXy .ix 0xED, []),
    ([0b11111101, 0b11001011, 0b01111111, 0b00111001], .srlMemXyR .iy 0x7F .c, [])
    ] : List (List Byte × Instr × List Byte)).all (fun x => read x.1 == some x.2) = true := by decide

theorem test_decode_bit :
    ([
    ([0b11001011, 0b01011011], .bitR 3 .e, []),
    ([0b11001011, 0b01101110], .bitMemHl 5, []),
    ([0b11001011, 0b10010101], .resR 2 .l, []),
    ([0b11001011, 0b10100110], .resMemHl 4, []),
    ([0b11001011, 0b11001111], .setR 1 .a, []),
    ([0b11001011, 0b11011110], .setMemHl 3, []),
    ([0b11011101, 0b11001011, 0b10100011, 0b01111001], .bitMemXy .ix 7 0xA3 1, []),
    ([0b11111101, 0b11001011, 0b11000111, 0b10011110], .resMemXy .iy 3 0xC7, []),
    ([0b11011101, 0b11001011, 0b10100010, 0b10010010], .resMemXyR .ix 2 0xA2 .d, []),
    ([0b11111101, 0b11001011, 0b11000110, 0b11110110], .setMemXy .iy 6 0xC6, []),
    ([0b11011101, 0b11001011, 0b10100001, 0b11101011], .setMemXyR .ix 5 0xA1 .e, [])
    ] : List (List Byte × Instr × List Byte)).all (fun x => read x.1 == some x.2) = true := by decide

theorem test_decode_jump :
    ([
    ([0b00010000, 0b01010010], .djnz 0x52, []),
    ([0b00011000, 0b10011011], .jr 0x9B, []),
    ([0b00100000, 0b11100100], .jrNz 0xE4, []),
    ([0b00101000, 0b00101101], .jrZ 0x2D, []),
    ([0b00110000, 0b01110110], .jrNc 0x76, []),
    ([0b00111000, 0b10111111], .jrC 0xBF, []),
    ([0b11010000], .retCc .nc, []),
    ([0b11001001], .ret, []),
    ([0b11101001], .jpHl, []),
    ([0b11101010, 0b01001000, 0b01100011], .jpCcNn .pe 0x6348, []),
    ([0b11000011, 0b00110111, 0b10000010], .jpNn 0x8237, []),
    ([0b11110100, 0b11110011, 0b11111101], .callCcNn .p 0xFDF3, []),
    ([0b11001101, 0b11010001, 0b00111011], .callNn 0x3BD1, []),
    ([0b11110111], .rst 6, []),
    ([0b11101101, 0b01001101], .reti, []),
    ([0b11101101, 0b01110101], .retn 6, []),
    ([0b11011101, 0b11101001], .jpXy .ix, [])
    ] : List (List Byte × Instr × List Byte)).all (fun x => read x.1 == some x.2) = true := by decide

theorem test_decode_io :
    ([
    ([0b11010011, 0b00100111], .outNA 0x27, []),
    ([0b11011011, 0b01110000], .inAN 0x70, []),
    ([0b11101101, 0b01011000], .inRC .e, []),
    ([0b11101101, 0b01110000], .inC, []),
    ([0b11101101, 0b01001001], .outCR .c, []),
    ([0b11101101, 0b01110001], .outC0, []),
    ([0b11101101, 0b10100010], .ini, []),
    ([0b11101101, 0b10100011], .outi, []),
    ([0b11101101, 0b10101010], .ind, []),
    ([0b11101101, 0b10101011], .outd, []),
    ([0b11101101, 0b10110010], .inir, []),
    ([0b11101101, 0b10110011], .otir, []),
    ([0b11101101, 0b10111010], .indr, []),
    ([0b11101101, 0b10111011], .otdr, [])
    ] : List (List Byte × Instr × List Byte)).all (fun x => read x.1 == some x.2) = true := by decide

/-! ### Single steps, from the vectors of 95_test_vectors.md -/

/-- V40-02 (R152). -/
theorem test_v40_02_ldRMemHl_same :
    run [0x66] (poke 0x9000 0x77 { zero with h := 0x90 })
      (fun t => (t.hl, t.frameT)) =
    some (0x7700, 7) := by decide

/-- V40-05 (R153). -/
theorem test_v40_05_ldRMemXy_realH :
    run [0xDD, 0x66, 0x05] (poke 0x9005 0x77 { zero with h := 0x12, l := 0x34, ix := 0x9000 })
      (fun t => (t.hl, t.memptr, t.frameT)) =
    some (0x7734, 0x9005, 19) := by decide

/-- V40-06 (R168). -/
theorem test_v40_06_ldPP :
    run [0xDD, 0x65] { zero with h := 0x55, l := 0x66, ix := 0x12AB }
      (fun t => (t.ix, t.frameT)) =
    some (0xABAB, 8) := by decide

/-- V40-07 (R169). -/
theorem test_v40_07_ldXyHalfN :
    run [0xFD, 0x2E, 0x9C] { zero with iy := 0x1200 }
      (fun t => (t.iy, t.frameT)) =
    some (0x129C, 11) := by decide

/-- V40-08 (R155). -/
theorem test_v40_08_ldMemXyR_wraps :
    run [0xDD, 0x74, 0x80] { zero with h := 0xBE, l := 0xEF, ix := 0x0010 }
      (fun t => (t.memptr, t.frameT, read8 t 0xFF90)) =
    some (0xFF90, 19, 0xBE) := by decide

/-- V40-09 (R157). -/
theorem test_v40_09_ldMemXyN :
    run [0xFD, 0x36, 0xFF, 0x5A] { zero with iy := 0x9001 }
      (fun t => (t.memptr, t.frameT, read8 t 0x9000)) =
    some (0x9000, 19, 0x5A) := by decide

/-- V40-11 (R162). -/
theorem test_v40_11_ldMemDeA_memptr :
    run [0x12] { zero with a := 0x5A, d := 0x90, e := 0xFF }
      (fun t => (t.memptr, t.frameT, read8 t 0x90FF)) =
    some (0x5A00, 7, 0x5A) := by decide

/-- V40-13 (R163). -/
theorem test_v40_13_ldMemNnA_memptr :
    run [0x32, 0xFF, 0x90] { zero with a := 0x5A }
      (fun t => (t.memptr, t.frameT, read8 t 0x90FF)) =
    some (0x5A00, 13, 0x5A) := by decide

/-- V40-14 (R164). -/
theorem test_v40_14_ldAI :
    run [0xED, 0x57] { zero with f := 0x01, i := 0x80, iff2 := true }
      (fun t => (t.a, t.f, t.frameT)) =
    some (0x80, 0x85, 9) := by decide

/-- V40-17 (R165). -/
theorem test_v40_17_ldAR_bit7 :
    run [0xED, 0x5F] { zero with r := 0xFE }
      (fun t => (t.a, t.f, t.r, t.frameT)) =
    some (0x80, 0x80, 0x80, 9) := by decide

/-- V40-18 (R167). -/
theorem test_v40_18_ldRA :
    run [0xED, 0x4F] { zero with a := 0x83 }
      (fun t => (t.r, t.frameT)) =
    some (0x83, 9) := by decide

/-- V40-04 (R156). -/
theorem test_v40_04_ldMemHlN_rom :
    run [0x36, 0xA5] zero
      (fun t => (t.frameT, read8 t 0x0000)) =
    some (10, 0x00) := by decide

/-- V41-05 (R193). -/
theorem test_v41_05_ldDdMemNn_wraps :
    run [0xED, 0x7B, 0xFF, 0xFF] (poke 0xFFFF 0x34 zero)
      (fun t => (t.sp, t.frameT)) =
    some (0x0034, 20) := by decide

/-- V41-06 (R195). -/
theorem test_v41_06_ldMemNnHl :
    run [0x22, 0x00, 0x90] { zero with h := 0x12, l := 0x34 }
      (fun t => (t.memptr, t.frameT, read8 t 0x9000, read8 t 0x9001)) =
    some (0x9001, 16, 0x34, 0x12) := by decide

/-- V41-10 (R199). -/
theorem test_v41_10_ldSpXy :
    run [0xDD, 0xF9] { zero with ix := 0xC100 }
      (fun t => (t.sp, t.frameT)) =
    some (0xC100, 10) := by decide

/-- V41-11 (R200). -/
theorem test_v41_11_pushQq_af :
    run [0xF5] { zero with a := 0x12, f := 0xD7, sp := 0x9002 }
      (fun t => (t.f, t.sp, t.frameT, read8 t 0x9000, read8 t 0x9001)) =
    some (0xD7, 0x9000, 11, 0xD7, 0x12) := by decide

/-- V41-12 (R202). -/
theorem test_v41_12_popQq_af :
    run [0xF1] (poke 0x9001 0x12 (poke 0x9000 0xD7 { zero with sp := 0x9000 }))
      (fun t => (t.a, t.f, t.sp, t.frameT)) =
    some (0x12, 0xD7, 0x9002, 10) := by decide

/-- V41-13 (R200). -/
theorem test_v41_13_pushQq_rom :
    run [0xC5] { zero with b := 0x12, c := 0x34, sp := 0x0001 }
      (fun t => (t.sp, t.frameT, read8 t 0xFFFF)) =
    some (0xFFFF, 11, 0x34) := by decide

/-- V41-15 (R201). -/
theorem test_v41_15_pushXy :
    run [0xDD, 0xE5] { zero with ix := 0xABCD, sp := 0x9002 }
      (fun t => (t.sp, t.frameT, read8 t 0x9000, read8 t 0x9001)) =
    some (0x9000, 15, 0xCD, 0xAB) := by decide

/-- V41-16 (R203). -/
theorem test_v41_16_popXy :
    run [0xFD, 0xE1] (poke 0x9001 0xBE (poke 0x9000 0xEF { zero with sp := 0x9000 }))
      (fun t => (t.iy, t.sp, t.frameT)) =
    some (0xBEEF, 0x9002, 14) := by decide

/-- V42-02 (R221). -/
theorem test_v42_02_exAfAf :
    run [0x08] { zero with a := 0x12, f := 0x34, a' := 0x56, f' := 0x78 }
      (fun t => (t.a, t.f, t.a', t.f', t.frameT)) =
    some (0x56, 0x78, 0x12, 0x34, 4) := by decide

/-- V42-04 (R223). -/
theorem test_v42_04_exSpHl :
    run [0xE3] (poke 0x9001 0xAB (poke 0x9000 0xCD { zero with h := 0x12, l := 0x34, sp := 0x9000 }))
      (fun t => (t.hl, t.memptr, t.frameT, read8 t 0x9000, read8 t 0x9001)) =
    some (0xABCD, 0xABCD, 19, 0x34, 0x12) := by decide

/-- V42-06 (R225). -/
theorem test_v42_06_ldi_last :
    run [0xED, 0xA0] (poke 0x9000 0x07 { zero with a := 0x01, c := 0x01, d := 0x91, f := 0xFF, h := 0x90 })
      (fun t => ((t.bc, t.de, t.f), (t.hl, t.frameT, read8 t 0x9100))) =
    some ((0x0000, 0x9101, 0xC9), (0x9001, 16, 0x07)) := by decide

/-- V42-08 (R227). -/
theorem test_v42_08_ldd_wraps :
    run [0xED, 0xA8] (poke 0x9000 0x55 { zero with d := 0x91, h := 0x90 })
      (fun t => ((t.bc, t.de, t.f), (t.hl, t.frameT, read8 t 0x9100))) =
    some ((0xFFFF, 0x90FF, 0x04), (0x8FFF, 16, 0x55)) := by decide

/-- V42-10 (R228). -/
theorem test_v42_10_lddr_last :
    run [0xED, 0xB8] (poke 0x9001 0x33 { zero with c := 0x01, d := 0x91, e := 0x01, h := 0x90, l := 0x01 })
      (fun t => ((t.bc, t.de, t.f), (t.hl, t.frameT, read8 t 0x9101))) =
    some ((0x0000, 0x9100, 0x20), (0x9000, 16, 0x33)) := by decide

/-- V42-12 (R229). -/
theorem test_v42_12_cpi_halfBorrow :
    run [0xED, 0xA1] (poke 0x9000 0x01 { zero with a := 0x10, c := 0x01, h := 0x90 })
      (fun t => (t.bc, t.f, t.hl, t.memptr, t.frameT)) =
    some (0x0000, 0x3A, 0x9001, 0x0001, 16) := by decide

/-- V42-13 (R231). -/
theorem test_v42_13_cpd_memptr :
    run [0xED, 0xA9] (poke 0x9000 0x01 { zero with c := 0x05, h := 0x90, memptr := 0x1000 })
      (fun t => (t.bc, t.f, t.hl, t.memptr, t.frameT)) =
    some (0x0004, 0xBE, 0x8FFF, 0x0FFF, 16) := by decide

/-- V42-15 (R230). -/
theorem test_v42_15_cpir_last :
    run [0xED, 0xB1] (poke 0x9000 0x11 { zero with a := 0x99, c := 0x01, h := 0x90 })
      (fun t => (t.bc, t.f, t.hl, t.memptr, t.frameT)) =
    some (0x0000, 0x8A, 0x9001, 0x0001, 16) := by decide

/-- V42-17 (R226). -/
theorem test_v42_17_ldir_repeats :
    run [0xED, 0xB0] (poke 0x3FFF 0xA5 { zero with d := 0x40, h := 0x3F, l := 0xFF })
      (fun t => ((t.bc, t.de, t.f, t.hl), (t.pc, t.memptr, t.frameT, read8 t 0x4000))) =
    some ((0xFFFF, 0x4001, 0x04, 0x4000), (0x8000, 0x8001, 21, 0xA5)) := by decide

/-- V43-01 (R260). -/
theorem test_v43_01_addR :
    run [0x80] { zero with a := 0x80, b := 0x80 }
      (fun t => (t.a, t.f, t.frameT)) =
    some (0x00, 0x45, 4) := by decide

/-- V43-03 (R265). -/
theorem test_v43_03_adcR :
    run [0x8F] { zero with a := 0x7F, f := 0x01 }
      (fun t => (t.a, t.f, t.frameT)) =
    some (0xFF, 0xBC, 4) := by decide

/-- V43-06 (R270). -/
theorem test_v43_06_subR :
    run [0x90] { zero with b := 0x01 }
      (fun t => (t.a, t.f, t.frameT)) =
    some (0xFF, 0xBB, 4) := by decide

/-- V43-09 (R276). -/
theorem test_v43_09_sbcN :
    run [0xDE, 0x7F] { zero with a := 0xFF, f := 0x01 }
      (fun t => (t.a, t.f, t.frameT)) =
    some (0x7F, 0x3E, 7) := by decide

/-- V43-10 (R280). -/
theorem test_v43_10_andR :
    run [0xA7] { zero with f := 0x01 }
      (fun t => (t.f, t.frameT)) =
    some (0x54, 4) := by decide

/-- V43-12 (R285). -/
theorem test_v43_12_xorR :
    run [0xAF] { zero with a := 0x5A, f := 0xFF }
      (fun t => (t.a, t.f, t.frameT)) =
    some (0x00, 0x44, 4) := by decide

/-- V43-13 (R290). -/
theorem test_v43_13_orR :
    run [0xB7] { zero with a := 0x28, f := 0x01 }
      (fun t => (t.f, t.frameT)) =
    some (0x2C, 4) := by decide

/-- V43-14 (R296). -/
theorem test_v43_14_cpN_yx :
    run [0xFE, 0x28] { zero with a := 0x20 }
      (fun t => (t.f, t.frameT)) =
    some (0xBB, 7) := by decide

/-- V43-18 (R300). -/
theorem test_v43_18_incR :
    run [0x04] { zero with b := 0x7F }
      (fun t => (t.bc, t.f, t.frameT)) =
    some (0x8000, 0x94, 4) := by decide

/-- V43-20 (R304). -/
theorem test_v43_20_decR :
    run [0x0D] { zero with c := 0x80, f := 0x01 }
      (fun t => (t.bc, t.f, t.frameT)) =
    some (0x007F, 0x3F, 4) := by decide

/-- V43-22 (R305). -/
theorem test_v43_22_decMemHl_rom :
    run [0x35] { zero with h := 0x01 }
      (fun t => (t.f, t.frameT, read8 t 0x0100)) =
    some (0xBA, 11, 0x00) := by decide

/-- V43-23 (R302). -/
theorem test_v43_23_incMemXy :
    run [0xDD, 0x34, 0xFE] (poke 0x9000 0xFF { zero with f := 0x01, ix := 0x9002 })
      (fun t => (t.f, t.memptr, t.frameT, read8 t 0x9000)) =
    some (0x51, 0x9000, 23, 0x00) := by decide

/-- V43-25 (R303). -/
theorem test_v43_25_incXyHalf :
    run [0xDD, 0x24] { zero with h := 0x12, l := 0x34, ix := 0x7FEE }
      (fun t => (t.f, t.ix, t.frameT)) =
    some (0x94, 0x80EE, 8) := by decide

/-- V43-27 (R263). -/
theorem test_v43_27_addMemXy :
    run [0xDD, 0x86, 0x00] (poke 0x9000 0x0F { zero with a := 0x01, ix := 0x9000 })
      (fun t => (t.a, t.f, t.memptr, t.frameT)) =
    some (0x10, 0x10, 0x9000, 19) := by decide

/-- V43-28 (R269). -/
theorem test_v43_28_adcXyHalf :
    run [0xDD, 0x8C] { zero with a := 0x10, f := 0x01, h := 0x99, l := 0x99, ix := 0x2000 }
      (fun t => (t.a, t.f, t.frameT)) =
    some (0x31, 0x20, 8) := by decide

/-- V44-02 (R320). -/
theorem test_v44_02_daa_add :
    run [0x27] { zero with a := 0x9A }
      (fun t => (t.a, t.f, t.frameT)) =
    some (0x00, 0x55, 4) := by decide

/-- V44-03 (R320). -/
theorem test_v44_03_daa_sub :
    run [0x27] { zero with a := 0x0F, f := 0x12 }
      (fun t => (t.a, t.f, t.frameT)) =
    some (0x09, 0x0E, 4) := by decide

/-- V44-07 (R321). -/
theorem test_v44_07_cpl :
    run [0x2F] { zero with a := 0x5A, f := 0xC5 }
      (fun t => (t.a, t.f, t.frameT)) =
    some (0xA5, 0xF7, 4) := by decide

/-- V44-08 (R322). -/
theorem test_v44_08_neg :
    run [0xED, 0x44] { zero with a := 0x80 }
      (fun t => (t.f, t.frameT)) =
    some (0x87, 8) := by decide

/-- V44-11 (R323). -/
theorem test_v44_11_ccf :
    run [0x3F] { zero with a := 0x28, f := 0x01 }
      (fun t => (t.f, t.frameT)) =
    some (0x38, 4) := by decide

/-- V44-13 (R324). -/
theorem test_v44_13_scf :
    run [0x37] { zero with a := 0xFF, f := 0x12 }
      (fun t => (t.f, t.frameT)) =
    some (0x29, 4) := by decide

/-- V44-17 (R328). -/
theorem test_v44_17_ei :
    run [0xFB] zero
      (fun t => (t.frameT, t.iff1, t.iff2, t.inhibit)) =
    some (4, true, true, true) := by decide

/-- V44-21 (R329). -/
theorem test_v44_21_im0_copy :
    run [0xED, 0x4E] { zero with im := .im2 }
      (fun t => (t.frameT, t.im)) =
    some (8, .im0) := by decide

/-- V44-24 (R332). -/
theorem test_v44_24_nopEd7 :
    run [0xED, 0x77] { zero with f := 0xFF }
      (fun t => (t.f, t.r, t.frameT)) =
    some (0xFF, 0x02, 8) := by decide

/-- V45-01 (R340). -/
theorem test_v45_01_addHlSs :
    run [0x09] { zero with c := 0x01, f := 0xC4, h := 0x0F, l := 0xFF }
      (fun t => (t.f, t.hl, t.memptr, t.frameT)) =
    some (0xD4, 0x1000, 0x1000, 11) := by decide

/-- V45-05 (R341). -/
theorem test_v45_05_adcHlSs :
    run [0xED, 0x5A] { zero with e := 0x01, h := 0x7F, l := 0xFF }
      (fun t => (t.f, t.hl, t.memptr, t.frameT)) =
    some (0x94, 0x8000, 0x8000, 15) := by decide

/-- V45-08 (R342). -/
theorem test_v45_08_sbcHlSs :
    run [0xED, 0x52] { zero with e := 0x01, h := 0x80 }
      (fun t => (t.f, t.hl, t.memptr, t.frameT)) =
    some (0x3E, 0x7FFF, 0x8001, 15) := by decide

/-- V45-11 (R343). -/
theorem test_v45_11_addXyPp :
    run [0xDD, 0x29] { zero with h := 0x11, l := 0x11, ix := 0x4800 }
      (fun t => (t.f, t.ix, t.memptr, t.frameT)) =
    some (0x10, 0x9000, 0x4801, 15) := by decide

/-- V45-14 (R344). -/
theorem test_v45_14_incSs :
    run [0x03] { zero with b := 0xFF, c := 0xFF, f := 0xFF }
      (fun t => (t.bc, t.f, t.frameT)) =
    some (0x0000, 0xFF, 6) := by decide

/-- V45-17 (R347). -/
theorem test_v45_17_decXy :
    run [0xFD, 0x2B] { zero with iy := 0x0000 }
      (fun t => (t.iy, t.frameT)) =
    some (0xFFFF, 10) := by decide

/-- V46-02 (R362). -/
theorem test_v46_02_rrca :
    run [0x0F] { zero with a := 0x01, f := 0xFE }
      (fun t => (t.a, t.f, t.frameT)) =
    some (0x80, 0xC5, 4) := by decide

/-- V46-04 (R363). -/
theorem test_v46_04_rra :
    run [0x1F] { zero with a := 0x01, f := 0x01 }
      (fun t => (t.a, t.f, t.frameT)) =
    some (0x80, 0x01, 4) := by decide

/-- V46-06 (R370). -/
theorem test_v46_06_rrcMemHl :
    run [0xCB, 0x0E] (poke 0x9000 0x01 { zero with h := 0x90 })
      (fun t => (t.f, t.frameT, read8 t 0x9000)) =
    some (0x81, 15, 0x80) := by decide

/-- V46-07 (R373). -/
theorem test_v46_07_rlR :
    run [0xCB, 0x17] { zero with a := 0x80 }
      (fun t => (t.a, t.f, t.frameT)) =
    some (0x00, 0x45, 8) := by decide

/-- V46-10 (R385). -/
theorem test_v46_10_sraR :
    run [0xCB, 0x2B] { zero with e := 0x81 }
      (fun t => (t.de, t.f, t.frameT)) =
    some (0x00C0, 0x85, 8) := by decide

/-- V46-11 (R389). -/
theorem test_v46_11_sllR :
    run [0xCB, 0x34] { zero with h := 0x80 }
      (fun t => (t.f, t.hl, t.frameT)) =
    some (0x01, 0x0100, 8) := by decide

/-- V46-14 (R368). -/
theorem test_v46_14_rlcMemXyR :
    run [0xDD, 0xCB, 0x02, 0x00] (poke 0x9002 0x81 { zero with b := 0x55, c := 0x55, ix := 0x9000 })
      (fun t => (t.bc, t.f, t.memptr, t.frameT, read8 t 0x9002)) =
    some (0x0355, 0x05, 0x9002, 23, 0x03) := by decide

/-- V46-15 (R396). -/
theorem test_v46_15_srlMemXyR :
    run [0xFD, 0xCB, 0xFF, 0x3F] (poke 0x9000 0x03 { zero with a := 0x77, iy := 0x9001 })
      (fun t => (t.a, t.f, t.memptr, t.frameT, read8 t 0x9000)) =
    some (0x01, 0x01, 0x9000, 23, 0x01) := by decide

/-- V46-17 (R397). -/
theorem test_v46_17_rld :
    run [0xED, 0x6F] (poke 0x9000 0x31 { zero with a := 0x7A, f := 0x01, h := 0x90 })
      (fun t => (t.a, t.f, t.memptr, t.frameT, read8 t 0x9000)) =
    some (0x73, 0x21, 0x9001, 18, 0x1A) := by decide

/-- V46-18 (R398). -/
theorem test_v46_18_rrd :
    run [0xED, 0x67] (poke 0x9000 0x20 { zero with a := 0x84, h := 0x90 })
      (fun t => (t.a, t.f, t.memptr, t.frameT, read8 t 0x9000)) =
    some (0x80, 0x80, 0x9001, 18, 0x42) := by decide

/-- V47-01 (R400). -/
theorem test_v47_01_bitR :
    run [0xCB, 0x7F] { zero with a := 0x80, f := 0x01 }
      (fun t => (t.f, t.frameT)) =
    some (0x91, 8) := by decide

/-- V47-04 (R401). -/
theorem test_v47_04_bitMemHl_memptr :
    run [0xCB, 0x46] (poke 0x9000 0x01 { zero with h := 0x90, memptr := 0x2800 })
      (fun t => (t.f, t.frameT)) =
    some (0x38, 12) := by decide

/-- V47-07 (R402). -/
theorem test_v47_07_bitMemXy_copy :
    run [0xDD, 0xCB, 0x10, 0x58] (poke 0x2900 0x00 { zero with b := 0xFF, ix := 0x28F0 })
      (fun t => (t.f, t.memptr, t.frameT)) =
    some (0x7C, 0x2900, 20) := by decide

/-- V47-10 (R407). -/
theorem test_v47_10_resR :
    run [0xCB, 0x87] { zero with a := 0xFF }
      (fun t => (t.a, t.frameT)) =
    some (0xFE, 8) := by decide

/-- V47-13 (R406). -/
theorem test_v47_13_setMemXyR :
    run [0xFD, 0xCB, 0x05, 0xC1] { zero with c := 0xAA, iy := 0x9000 }
      (fun t => (t.bc, t.memptr, t.frameT, read8 t 0x9005)) =
    some (0x0001, 0x9005, 23, 0x01) := by decide

/-- V48-03 (R421). -/
theorem test_v48_03_jpCcNn_not :
    run [0xCA, 0x34, 0x12] zero
      (fun t => (t.f, t.memptr, t.frameT)) =
    some (0x00, 0x1234, 10) := by decide

/-- V48-08 (R422). -/
theorem test_v48_08_jr_back :
    run [0x18, 0x80] zero
      (fun t => (t.pc, t.memptr, t.frameT)) =
    some (0x7F82, 0x7F82, 12) := by decide

/-- V48-10 (R423). -/
theorem test_v48_10_jrC_not :
    run [0x38, 0x10] zero
      (fun t => (t.f, t.frameT)) =
    some (0x00, 7) := by decide

/-- V48-12 (R429). -/
theorem test_v48_12_djnz :
    run [0x10, 0xFE] { zero with b := 0x02, f := 0xFF }
      (fun t => (t.bc, t.f, t.pc, t.memptr, t.frameT)) =
    some (0x0100, 0xFF, 0x8000, 0x8000, 13) := by decide

/-- V48-14 (R429). -/
theorem test_v48_14_djnz_wraps :
    run [0x10, 0xFE] zero
      (fun t => (t.bc, t.pc, t.memptr, t.frameT)) =
    some (0xFF00, 0x8000, 0x8000, 13) := by decide

/-- V48-15 (R430). -/
theorem test_v48_15_callNn :
    run [0xCD, 0x00, 0x90] { zero with sp := 0x9100 }
      (fun t => ((t.sp, t.pc, t.memptr), (t.frameT, read8 t 0x90FE, read8 t 0x90FF))) =
    some ((0x90FE, 0x9000, 0x9000), (17, 0x03, 0x80)) := by decide

/-- V48-16 (R431). -/
theorem test_v48_16_callCcNn_not :
    run [0xDC, 0x00, 0x90] { zero with sp := 0x9100 }
      (fun t => (t.f, t.memptr, t.frameT)) =
    some (0x00, 0x9000, 10) := by decide

/-- V48-20 (R433). -/
theorem test_v48_20_retCc_not :
    run [0xC0] { zero with f := 0x40, sp := 0x9000 }
      (fun t => (t.f, t.frameT)) =
    some (0x40, 5) := by decide

/-- V48-22 (R436). -/
theorem test_v48_22_rst_wraps :
    run [0xC7] { zero with sp := 0x0000 }
      (fun t => (t.sp, t.pc, t.frameT, read8 t 0xFFFE, read8 t 0xFFFF)) =
    some (0xFFFE, 0x0000, 11, 0x01, 0x80) := by decide

/-- V48-23 (R427). -/
theorem test_v48_23_jpHl :
    run [0xE9] { zero with h := 0x12, l := 0x34 }
      (fun t => (t.pc, t.frameT)) =
    some (0x1234, 4) := by decide

/-- V48-25 (R434). -/
theorem test_v48_25_reti :
    run [0xED, 0x4D] (poke 0x9001 0x12 (poke 0x9000 0x34 { zero with sp := 0x9000, iff1 := false, iff2 := true }))
      (fun t => (t.sp, t.pc, t.memptr, t.frameT, t.iff1)) =
    some (0x9002, 0x1234, 0x1234, 14, true) := by decide

/-- V48-27 (R435). -/
theorem test_v48_27_retn_copy :
    run [0xED, 0x55] (poke 0x9001 0x12 (poke 0x9000 0x34 { zero with sp := 0x9000, iff1 := false, iff2 := true }))
      (fun t => (t.sp, t.pc, t.memptr, t.frameT, t.iff1)) =
    some (0x9002, 0x1234, 0x1234, 14, true) := by decide

/-- V49-03 (R457). -/
theorem test_v49_03_outNA :
    run [0xD3, 0xFE] { zero with a := 0x15 }
      (fun t => (t.memptr, t.frameT, t.border, t.beeper, t.log)) =
    some (0x15FF, 11, 0x05, true, [⟨7, 0x15FE, 0x15⟩]) := by decide

/-- V49-04 (R451). -/
theorem test_v49_04_inRC :
    run [0xED, 0x78] { zero with
        b := 0x7F, c := 0xFE, f := 0x01, tapeIn := true, keyrow := #v[31, 31, 31, 31, 31, 31, 31, 15] }
      (fun t => (t.a, t.f, t.memptr, t.frameT)) =
    some (0xEF, 0xA9, 0x7FFF, 12) := by decide

/-- V49-06 (R452). -/
theorem test_v49_06_inC :
    run [0xED, 0x70] { zero with b := 0xFF, c := 0xFE, f := 0x01 }
      (fun t => (t.f, t.memptr, t.frameT)) =
    some (0xA9, 0xFFFF, 12) := by decide

/-- V49-09 (R453). -/
theorem test_v49_09_ini :
    run [0xED, 0xA2] { zero with b := 0x02, c := 0xFE, h := 0x90, keyrow := #v[31, 27, 31, 31, 31, 31, 31, 31] }
      (fun t => ((t.bc, t.f, t.hl), (t.memptr, t.frameT, read8 t 0x9000))) =
    some ((0x01FE, 0x13, 0x9001), (0x02FF, 16, 0xBF)) := by decide

/-- V49-10 (R455). -/
theorem test_v49_10_ind :
    run [0xED, 0xAA] { zero with b := 0x01, c := 0xFF, h := 0x90 }
      (fun t => ((t.bc, t.f, t.hl), (t.memptr, t.frameT, read8 t 0x9000))) =
    some ((0x00FF, 0x57, 0x8FFF), (0x01FE, 16, 0xFF)) := by decide

/-- V49-12 (R462). -/
theorem test_v49_12_outd :
    run [0xED, 0xAB] (poke 0x9000 0xFF { zero with b := 0x01, c := 0x01, h := 0x90 })
      (fun t => (t.bc, t.f, t.hl, t.frameT, t.log)) =
    some (0x0001, 0x57, 0x8FFF, 16, [⟨12, 0x0001, 0xFF⟩]) := by decide

/-- V49-15 (R463). -/
theorem test_v49_15_otdr_last :
    run [0xED, 0xBB] (poke 0x9000 0x04 { zero with b := 0x01, c := 0xFE, h := 0x90 })
      (fun t => ((t.bc, t.f, t.hl, t.memptr), (t.frameT, t.border, t.log))) =
    some ((0x00FE, 0x55, 0x8FFF, 0x00FD), (16, 0x04, [⟨12, 0x00FE, 0x04⟩])) := by decide

/-- V60-03 (R508). -/
theorem test_v60_03_int_im0 :
    run [0x00] { zero with
        sp := 0x9100, pc := 0x8123, iff1 := true, iff2 := true, im := .im0, intState := .pending
        cfg := { Config.default with intBusByte := 0xC7 } }
      (fun t => ((t.sp, t.pc, t.frameT, t.iff1), (t.intState, read8 t 0x90FE, read8 t 0x90FF))) =
    some ((0x90FE, 0x0000, 13, false), (.serviced, 0x23, 0x81)) := by decide

/-- V60-05 (R510). -/
theorem test_v60_05_int_im2_stack :
    run [0x00] (poke 0x9100 0x12 (poke 0x90FF 0x34 { zero with
        sp := 0x9100, pc := 0x8123, i := 0x90, iff1 := true, iff2 := true, im := .im2, intState := .pending }))
      (fun t => ((t.sp, t.pc, t.frameT, t.iff1), (t.intState, read8 t 0x90FE, read8 t 0x90FF))) =
    some ((0x90FE, 0x1281, 19, false), (.serviced, 0x23, 0x81)) := by decide

/-- V60-12 (R504, R507). -/
theorem test_v60_12_int_halted :
    run [0x00] { zero with
        sp := 0x9100, pc := 0x8124, iff1 := true, iff2 := true, halted := true, im := .im1
        intState := .pending }
      (fun t => ((t.sp, t.pc, t.frameT, t.iff1), (t.halted, t.intState, read8 t 0x90FE, read8 t 0x90FF))) =
    some ((0x90FE, 0x0038, 13, false), (false, .serviced, 0x24, 0x81)) := by decide

/-- V60-13 (R504, R511). -/
theorem test_v60_13_nmi :
    run [0x00] { zero with sp := 0x9100, pc := 0x8123, iff1 := true, iff2 := true, nmiPending := true }
      (fun t => ((t.sp, t.pc, t.frameT, t.iff1), (t.nmiPending, read8 t 0x90FE, read8 t 0x90FF))) =
    some ((0x90FE, 0x0066, 11, false), (false, 0x23, 0x81)) := by decide

/-- V61-02 (R544). -/
theorem test_v61_02_paging_locked :
    run [0xED, 0x79] { zero128 with a := 0x07, b := 0x7F, c := 0xFD, paging := 0x20 }
      (fun t => (t.memptr, t.frameT, t.log)) =
    some (0x7FFE, 12, [⟨8, 0x7FFD, 0x07⟩]) := by decide

/-- V61-05 (R541, R547). -/
theorem test_v61_05_port_7ffc :
    run [0xED, 0x79] { zero128 with a := 0x12, b := 0x7F, c := 0xFC }
      (fun t => ((t.memptr, t.frameT, t.border), (t.paging, t.beeper, t.log))) =
    some ((0x7FFD, 12, 0x02), (0x12, true, [⟨8, 0x7FFC, 0x12⟩])) := by decide

/-- V61-07 (R541, R545). -/
theorem test_v61_07_ay_mask :
    run [0xED, 0x79] { zero128 with a := 0xFF, b := 0xBF, c := 0xFD, aySel := 0x01 }
      (fun t => (t.memptr, t.frameT, t.ayReg[1], t.log)) =
    some (0xBFFE, 12, 0x0F, [⟨8, 0xBFFD, 0xFF⟩]) := by decide

/-- V61-08 (R540, R545). -/
theorem test_v61_08_ay_read :
    run [0xED, 0x78] { zero128 with
        b := 0xFF, c := 0xFD, aySel := 0x08, ayReg := #v[0, 0, 0, 0, 0, 0, 0, 0, 31, 0, 0, 0, 0, 0, 0, 0] }
      (fun t => (t.a, t.f, t.memptr, t.frameT)) =
    some (0x1F, 0x08, 0xFFFE, 12) := by decide

/-- V61-14 (R542). -/
theorem test_v61_14_keyboard_rows :
    run [0xDB, 0xFE] { zero with a := 0xE7, keyrow := #v[31, 31, 31, 30, 15, 31, 31, 31] }
      (fun t => (t.a, t.memptr, t.frameT)) =
    some (0xAE, 0xE7FF, 11) := by decide

/-- V70-04 (R611, R613, R615). -/
theorem test_v70_04_delay_1 :
    run [0x00] { zero with pc := 0x4000, frameT := 14340 }
      (fun t => (t.frameT)) =
    some (14345) := by decide

/-- V70-17 (R344, R616). -/
theorem test_v70_17_delay_ir :
    run [0x23] { zero with i := 0x40, frameT := 14331 }
      (fun t => (t.hl, t.frameT)) =
    some (0x0001, 14343) := by decide

/-- V70-20 (R422, R615, R616). -/
theorem test_v70_20_delay_jr :
    run [0x18, 0xFE] { zero with pc := 0x4000, frameT := 14335 }
      (fun t => (t.pc, t.memptr, t.frameT)) =
    some (0x4000, 0x4000, 14374) := by decide

/-- V70-22 (R457, R617). -/
theorem test_v70_22_delay_port_ula :
    run [0xD3, 0xFE] { zero with a := 0x40, frameT := 14327 }
      (fun t => (t.memptr, t.frameT, t.log)) =
    some (0x40FF, 14344, [⟨14334, 0x40FE, 0x40⟩]) := by decide

/-- V70-24 (R457, R617). -/
theorem test_v70_24_delay_port_high :
    run [0xD3, 0xFF] { zero with a := 0x40, frameT := 14328 }
      (fun t => (t.memptr, t.frameT, t.log)) =
    some (0x4000, 14351, [⟨14335, 0x40FF, 0x40⟩]) := by decide

/-- V70-31 (R614). -/
theorem test_v70_31_delay_page7 :
    run [0x00] { zero128 with pc := 0xC000, frameT := 14362, paging := 0x07 }
      (fun t => (t.frameT)) =
    some (14371) := by decide

/-! ### The host's two functions -/

/-- A word numbered as the opcode table numbers it, and the first step after reset runs it. -/
theorem test_decodeTableWord :
    decodeTableWord 8 0x76 = some .halt ∧ decodeTableWord 24 0x210000 = some (.ldDdNn .hl 0x0000) ∧
      decodeTableWord 32 0xDDCB0006 = some (.rlcMemXy .ix 0x00) ∧ decodeTableWord 16 0xED4D = some .reti := by decide

theorem test_withFetchWord :
    (match step (State.reset.withFetchWord 16 0x3E05) with | .next t => some (t.a, t.pc) | _ => none) =
      some (0x05, 0x0002) ∧
    (match step (State.reset.withFetchWord 32 0xDD360500) with | .next t => some (t.memptr, t.pc) | _ => none) =
      some (0xA5AA, 0x0004) := by decide

/-- The source's property E2 (95_test_vectors part 1). -/
theorem test_e2_reset :
    (State.reset.pc, State.reset.sp, State.reset.iff1, State.reset.iff2, State.reset.im) =
      (0x0000, 0xFFFF, false, false, .im0) := by decide

/-! ### Witnesses: a state and operands that meet the hypotheses of each obligation -/

theorem test_witness_decodeTotal :
    MatchesBytes .nop [0x00, 0x00, 0x00, 0x00] ∧ MatchesBytes (.noni .ix) [0xDD, 0xED, 0, 0] := by
  refine ⟨⟨rfl, rfl, fun xy h => by cases h⟩, ⟨rfl, rfl, fun xy _ b hb => ?_⟩⟩
  simp only [List.getElem?_cons_succ, List.getElem?_cons_zero, Option.some.injEq] at hb
  subst hb
  decide

theorem test_witness_decodeEncode :
    (Instr.ldRN .a 0x05).WellFormed = true ∧
      (∀ xy, Instr.ldRN .a 0x05 = .noni xy → ∃ b bs, ([] : List Byte) = b :: bs ∧ idxSet.contains b = false) ∧
    (Instr.noni .ix).WellFormed = true ∧
      (∀ xy, Instr.noni .ix = .noni xy → ∃ b bs, [(0x00 : Byte)] = b :: bs ∧ idxSet.contains b = false) :=
  ⟨rfl, (fun _ h => nomatch h), rfl, fun _ _ => ⟨0x00, [], rfl, by decide⟩⟩

theorem test_witness_encodeDecode : decode [0x3E, 0x05, 0x76] = .ok (.ldRN .a 0x05, [0x76]) := rfl

/-- One decoding per clause of the lengths. -/
theorem test_witness_lengths :
    decode [0xCB, 0x00, 0x12, 0x34] = .ok (.rlcR .b, [0x12, 0x34]) ∧
    decode [0xED, 0x43, 0x00, 0x90] = .ok (.ldMemNnDd .bc 0x9000, []) ∧
    decode [0xED, 0x44, 0x00, 0x90] = .ok (.neg 0, [0x00, 0x90]) ∧
    decode [0xDD, 0xED, 0x44, 0x00] = .ok (.noni .ix, [0xED, 0x44, 0x00]) ∧
    decode [0xFD, 0xCB, 0x05, 0x06] = .ok (.rlcMemXy .iy 0x05, []) ∧
    decode [0xDD, 0x09, 0x00, 0x00] = .ok (.addXyPp .ix .bc, [0x00, 0x00]) ∧
    decode [0xDD, 0x36, 0x05, 0x21] = .ok (.ldMemXyN .ix 0x05 0x21, []) ∧
    decode [0x00, 0x01, 0x02, 0x03] = .ok (.nop, [0x01, 0x02, 0x03]) ∧
    decode [0xC3, 0x34, 0x12, 0x00] = .ok (.jpNn 0x1234, [0x00]) := ⟨rfl, rfl, rfl, rfl, rfl, rfl, rfl, rfl, rfl⟩

/-- The two models, and the byte an address names at the bounds of the slots (20_memory R82, R83). -/
theorem test_witness_memoryMap :
    zero.cfg.model = .m48 ∧ zero128.cfg.model = .m128 ∧
    [0x3FFF, 0x4000, 0x7FFF, 0x8000, 0xBFFF, 0xC000].map (placeOf zero) =
      [(.rom 0, 0x3FFF), (.ram 0, 0), (.ram 0, 0x3FFF), (.ram 1, 0), (.ram 1, 0x3FFF), (.ram 2, 0)] ∧
    [0x3FFF, 0x4000, 0x7FFF, 0x8000, 0xBFFF, 0xC000].map (placeOf { zero128 with paging := 0x17 }) =
      [(.rom 1, 0x3FFF), (.ram 5, 0), (.ram 5, 0x3FFF), (.ram 2, 0), (.ram 2, 0x3FFF), (.ram 7, 0)] := by
  decide

theorem test_witness_inv : zero.Inv ∧ zero128.Inv :=
  ⟨⟨rfl, rfl, rfl, rfl, fun _ => rfl⟩, ⟨rfl, rfl, rfl, rfl, fun _ => rfl⟩⟩

/-- A RAM byte, a ROM byte, and one byte with two addresses. -/
theorem test_witness_byteStore :
    zero.Inv ∧ pageAt zero 0x4000 = .ram 0 ∧ pageAt zero 0x3FFF = .rom 0 ∧
    placeOf { zero128 with paging := 0x02 } 0x8005 = placeOf { zero128 with paging := 0x02 } 0xC005 :=
  ⟨test_witness_inv.1, rfl, rfl, rfl⟩

theorem test_witness_stack :
    zero.Inv ∧ pageAt zero (zero.sp - 1) = .ram 2 ∧ pageAt zero (zero.sp - 2) = .ram 2 :=
  ⟨test_witness_inv.1, rfl, rfl⟩

/-- A port for each line of the read dispatcher, with the byte it reads. -/
theorem test_witness_portReads :
    let s := { zero128 with
      keyrow := #v[0x1E, 31, 31, 31, 31, 31, 31, 31], aySel := 8, ayReg := zero128.ayReg.set 8 0x1F }
    ((0xFEFE : Word).getLsbD 0, portRead s 0xFEFE) = (false, 0xBE) ∧
    ((0xFFFD : Word).getLsbD 0, portRead s 0xFFFD) = (true, 0x1F) ∧
    ((0xBFFD : Word).getLsbD 14, portRead s 0xBFFD) = (false, 0xFF) ∧
    (zero.cfg.model, portRead zero 0xFFFD) = (.m48, 0xFF) := by decide

/-- A write that reaches the paging latch, one that is locked out, the two sound chip writes, and one that reaches
neither. -/
theorem test_witness_portWrites :
    (portWrite 0x7FFD 0xD7 zero128).paging = 0x17 ∧
    (portWrite 0x7FFD 0x07 { zero128 with paging := 0x20 }).paging = 0x20 ∧
    (portWrite 0xFFFD 0xF7 zero128).aySel = 7 ∧
    (portWrite 0xBFFD 0xFF { zero128 with aySel := 1 }).ayReg[1] = 0x0F ∧
    (portWrite 0xFFFD 0xF7 zero).aySel = 0 ∧ (portWrite 0x7FFD 0x17 zero).paging = 0 := by decide

theorem test_witness_stepRunsDecoded :
    stepKind (coordinate State.reset) = .instruction ∧
    decode (fetchWindow (coordinate State.reset)) = .ok (.nop, [0x00, 0x00, 0x00]) ∧ Instr.nop.WellFormed = true :=
  ⟨rfl, rfl, rfl⟩

/-- A configuration with a finite hold. -/
def Tests.hold32 : Config := { Config.default with intHold := some 32 }

/-- A state for each clause of the priority; the last instant at which a finite hold accepts. -/
theorem test_witness_stepPriority :
    stepKind { zero with nmiPending := true } = .nmi ∧
    stepKind { zero with intState := .pending, iff1 := true } = .int ∧
    stepKind { zero with intState := .pending, iff1 := true, frameT := 31, cfg := hold32 }
      = .int ∧
    stepKind { zero with intState := .pending, iff1 := true, frameT := 32, cfg := hold32 }
      = .instruction ∧
    stepKind { zero with nmiPending := true, inhibit := true } = .instruction ∧
    stepKind { zero with halted := true } = .haltedCycle := by decide

/-- V60-19: the one refusal. -/
theorem test_witness_noTrap :
    step { zero with intState := .pending, iff1 := true, cfg := { Config.default with intBusByte := 0x00 } } =
      .refused .im0NonRst := rfl

/-- The last time within a frame and the first beyond it. -/
theorem test_witness_coordinator :
    zero.drive = .single ∧ State.reset.drive = .frames ∧
    { State.reset with frameT := 69887 }.frameT < frameTstates State.reset.cfg.model ∧
    frameTstates State.reset.cfg.model ≤ { State.reset with frameT := 69888 }.frameT ∧
    (coordinate { State.reset with frameT := 69887, intState := .serviced }).intState = .serviced ∧
    (coordinate { State.reset with frameT := 69888, intState := .serviced }).intState = .pending := by decide

theorem test_witness_interruptState :
    (∃ t, cpuStep zero = .next t ∧ t.inhibit = false) ∧
    (∃ t, cpuStep (poke 0x8000 0xFB zero) = .next t ∧ t.inhibit = true) ∧
    ∃ t, cpuStep { zero with nmiPending := true } = .next t ∧ t.nmiPending = false :=
  ⟨⟨_, rfl, rfl⟩, ⟨_, rfl, rfl⟩, ⟨_, rfl, rfl⟩⟩

theorem test_witness_refreshCount :
    (∃ t, exec .ldRA { zero with a := 0x83 } = .next t ∧ t.r = 0x83) ∧
    (∃ t, exec (.rlcR .b) { zero with r := 0xFF } = .next t ∧ t.r = 0x81) ∧
    ∃ t, cpuStep { zero with halted := true } = .next t ∧ stepKind { zero with halted := true } ≠ .instruction ∧
      t.r = 1 :=
  ⟨⟨_, rfl, rfl⟩, ⟨_, rfl, rfl⟩, ⟨_, rfl, by decide, rfl⟩⟩

theorem test_witness_pagingLock :
    (let s := { zero128 with paging := 0x20 }; ∃ t, step s = .next t ∧ s.paging.getLsbD 5 = true) ∧
    ∃ t, step zero = .next t ∧ zero.cfg.model = .m48 := ⟨⟨_, rfl, rfl⟩, ⟨_, rfl, rfl⟩⟩

theorem test_witness_ended : ({ zero with halted := true } : State).ended := ⟨rfl, rfl, rfl⟩

theorem test_witness_stepCost : ∃ t, cpuStep zero = .next t := ⟨_, rfl⟩

theorem test_witness_runFrame :
    zero.cfg.intBusByte &&& 0xC7 = 0xC7 ∧ zero.frameT < frameTstates zero.cfg.model := by decide

/-- Interrupts on in mode 0, the bus byte a NOP: the frame's first step accepts the interrupt (60_exceptions R508). -/
def Tests.im0Nop : State := { zero with iff1 := true, cfg := { zero.cfg with intBusByte := 0x00 } }

theorem test_witness_runFrame_refused :
    Tests.im0Nop.cfg.intBusByte &&& 0xC7 ≠ 0xC7 ∧ runFrame Tests.im0Nop = .refused .im0NonRst ∧
      frameLoop 0 (startFrame Tests.im0Nop) = .next (startFrame Tests.im0Nop) ∧
      stepKind (raiseInt (startFrame Tests.im0Nop)) = .int ∧ (startFrame Tests.im0Nop).im = .im0 :=
  ⟨by decide, rfl, rfl, rfl, rfl⟩

/-- The same bus byte in mode 2 is the low byte of the vector: the response answers a next state (60_exceptions R510). -/
theorem test_witness_runFrame_mode2 :
    stepKind (raiseInt (startFrame { Tests.im0Nop with im := .im2 })) = .int ∧
      ∃ t, cpuStep (raiseInt (startFrame { Tests.im0Nop with im := .im2 })) = .next t :=
  ⟨by decide, _, rfl⟩

theorem test_witness_stepKeepsInv : zero.Inv ∧ ∃ t, step zero = .next t := ⟨test_witness_inv.1, _, rfl⟩

theorem test_witness_stepKeepsInputs : ∃ t, step zero = .next t := ⟨_, rfl⟩

theorem test_witness_registerFrame : (∃ t, exec (.incR .b) zero = .next t) ∧ Reg.c ∉ destsOf (.incR .b) :=
  ⟨⟨_, rfl⟩, by decide⟩

theorem test_witness_flagFrame : (∃ t, exec .scf zero = .next t) ∧ (flagMaskOf .scf).getLsbD 7 = false :=
  ⟨⟨_, rfl⟩, rfl⟩

/-- HL in RAM. -/
def Tests.toRam : State := { zero with h := 0x90 }

theorem test_witness_memoryFrame :
    (∃ t, exec (.ldMemHlR .a) toRam = .next t) ∧ storeAddrs toRam (.ldMemHlR .a) = [0x9000] ∧
    placeOf toRam 0x9000 ≠ (.ram 1, 0x1001) ∧ placeOf toRam 0x9000 ≠ placeOf toRam 0x8FFF ∧
    writesPort (.ldMemHlR .a) = false := ⟨⟨_, rfl⟩, rfl, by decide, by decide, rfl⟩

theorem test_witness_portFrame : (∃ t, exec (.inAN 0xFE) zero = .next t) ∧ writesPort (.inAN 0xFE) = false :=
  ⟨⟨_, rfl⟩, rfl⟩

theorem test_witness_interruptFrame : ∃ t, exec .ei zero = .next t := ⟨_, rfl⟩

/-- SP above two bytes of RAM. -/
def Tests.stacked : State := { zero with sp := 0x9100 }

/-- A call, a restart and an NMI complete in every state, and so does the return after each. -/
theorem test_witness_callReturns_next (s : State) :
    (∃ t u, exec (.callNn 0xA000) s = .next t ∧ exec .ret t = .next u) ∧
    (∃ t u, exec (.rst 7) s = .next t ∧ exec .ret t = .next u) ∧
    ∃ u, exec (.retn 0) (nmiResponse s) = .next u := by
  have back : ∀ t, ∃ u, exec .ret t = .next u := fun t => ⟨_, rfl⟩
  obtain ⟨t, ht⟩ : ∃ t, exec (.callNn 0xA000) s = .next t := ⟨_, rfl⟩
  obtain ⟨t', ht'⟩ : ∃ t, exec (.rst 7) s = .next t := ⟨_, rfl⟩
  obtain ⟨u, hu⟩ := back t
  obtain ⟨u', hu'⟩ := back t'
  exact ⟨⟨t, u, ht, hu⟩, ⟨t', u', ht', hu'⟩, _, rfl⟩

theorem test_witness_callReturns :
    stacked.Inv ∧ pageAt stacked (stacked.sp - 1) = .ram 1 ∧ pageAt stacked (stacked.sp - 2) = .ram 1 ∧
    (∃ t u, exec (.callNn 0xA000) stacked = .next t ∧ exec .ret t = .next u) ∧
    (∃ t u, exec (.rst 7) stacked = .next t ∧ exec .ret t = .next u) ∧
    ∃ u, exec (.retn 0) (nmiResponse stacked) = .next u :=
  ⟨⟨rfl, rfl, rfl, rfl, fun _ => rfl⟩, rfl, rfl, test_witness_callReturns_next stacked⟩

/-- A snapshot of zeros fits the model without paging. -/
def Tests.blank : Snapshot :=
  { a := 0, f := 0, b := 0, c := 0, d := 0, e := 0, h := 0, l := 0, a' := 0, f' := 0, b' := 0, c' := 0, d' := 0, e' := 0
    h' := 0, l' := 0, ix := 0, iy := 0, sp := 0, pc := 0, i := 0, r := 0, iff1 := false, iff2 := false, im := 1
    pages := List.replicate 3 (List.replicate pageSize 0), paging := 0 }

theorem test_blank_fits : pagesFit .m48 blank.pages = true := by
  simp only [pagesFit, blank, ramPages, List.length_replicate, List.all_replicate, decide_true]
  rfl

theorem test_witness_loadSnapshot : zero.Inv ∧ ∃ t, loadSnapshot blank 0x1234 zero = some t := by
  refine ⟨test_witness_inv.1, ?_⟩
  have h : pagesFit zero.cfg.model blank.pages = true := test_blank_fits
  have hp : ¬(zero.cfg.model = .m48 ∧ blank.paging ≠ 0) := by decide
  have hi : intModeOf blank.im = some .im1 := rfl
  unfold loadSnapshot
  rw [hi, h]
  simp only [Bool.true_eq_false, if_false, if_neg hp]
  exact ⟨_, rfl⟩

/-- The rejections of the source's property E5 (95_test_vectors part 1). -/
theorem test_loadSnapshot_rejects :
    loadSnapshot { blank with im := 3 } 0 zero = none ∧ loadSnapshot { blank with pages := [] } 0 zero = none ∧
      loadSnapshot { blank with paging := 1 } 0 zero = none := by
  refine ⟨rfl, rfl, ?_⟩
  have h : pagesFit zero.cfg.model blank.pages = true := test_blank_fits
  have hp : zero.cfg.model = .m48 ∧ ({ blank with paging := 1 } : Snapshot).paging ≠ 0 := by decide
  have hi : intModeOf ({ blank with paging := 1 } : Snapshot).im = some .im1 := rfl
  unfold loadSnapshot
  rw [hi, h]
  simp only [Bool.true_eq_false, if_false, if_pos hp]
end

section
/-! PROOFS. What every instruction leaves as it was (10_state). `Frame W out b t` is the one relation that carries the
frame statements: `t` is `b` but for the registers of `W`, PC, the time, RAM and, where `out` is true, what port writes
change. Each named operation keeps it (one lemma an operation), so the frame of an instruction is read off its
meaning. -/

namespace Sys2Proof.Machine

/-- What every step keeps: the inputs, and the invariant where it held. -/
structure Keeps (s t : State) : Prop where
  inputs : SameInputs s t
  inv : s.Inv → t.Inv

theorem Keeps.trans {s t u : State} (h : Keeps s t) (h' : Keeps t u) : Keeps s u := by
  obtain ⟨⟨hc, hr, hk, ht, hd⟩, hi⟩ := h
  obtain ⟨⟨hc', hr', hk', ht', hd'⟩, hi'⟩ := h'
  exact ⟨⟨hc'.trans hc, hr'.trans hr, hk'.trans hk, ht'.trans ht, hd'.trans hd⟩, hi' ∘ hi⟩

/-- The fields that the inputs and the invariant are made of. -/
def State.keptPart (s : State) : Config × Memory × Vector (BitVec 5) 8 × Bool × Drive × Memory × BitVec 6 :=
  (s.cfg, s.rom, s.keyrow, s.tapeIn, s.drive, s.ram, s.paging)

/-- A state that has those fields of the old one keeps what every step keeps. -/
theorem Keeps.of_same {s t : State} (h : t.keptPart = s.keptPart) : Keeps s t := by
  simp only [State.keptPart, Prod.mk.injEq] at h
  obtain ⟨hcfg, hrom, hkey, htape, hdrive, hram, hpaging⟩ := h
  refine ⟨⟨hcfg, hrom, hkey, htape, hdrive⟩, ?_⟩
  rintro ⟨h1, h2, h3, h4, h5⟩
  exact ⟨hrom ▸ h1, hram ▸ h2, hcfg ▸ hrom ▸ h3, hcfg ▸ hram ▸ h4, hpaging ▸ hcfg ▸ h5⟩

theorem Keeps.refl (s : State) : Keeps s s := .of_same rfl

theorem Keeps.write8 (a : Word) (v : Byte) (s : State) : Keeps s (write8 a v s) where
  inputs := by simp [SameInputs]
  inv := by
    rintro ⟨h1, h2, h3, h4, h5⟩
    exact ⟨by simpa using h1, write8_ram_wf h2 a v, by simpa using h3, by simpa using write8_ram_below h4 a v,
      by simpa using h5⟩

/-- `t` with what port writes change (10_state R40 to R44) taken from `u`. -/
def State.withPorts (t u : State) : State :=
  { t with
    paging := u.paging, border := u.border, beeper := u.beeper, mic := u.mic, aySel := u.aySel, ayReg := u.ayReg
    log := u.log }

theorem withPorts_trans {s t u : State} (h : t = s.withPorts t) (h' : u = t.withPorts u) : u = s.withPorts u :=
  h'.trans (congrArg (·.withPorts u) h)

theorem pagingWrite_eq (v : Byte) (s : State) : pagingWrite v s = s.withPorts (pagingWrite v s) := by
  unfold pagingWrite
  split <;> rfl

theorem ayWrite_eq (p : Word) (v : Byte) (s : State) : ayWrite p v s = s.withPorts (ayWrite p v s) := by
  unfold ayWrite
  split <;> rfl

/-- Everything a port write can do: the latches, the sound registers and the log, nothing else. -/
theorem portWrite_eq (p : Word) (v : Byte) (s : State) : portWrite p v s = s.withPorts (portWrite p v s) := by
  have line : ∀ {c : Prop} [Decidable c] {f : State → State} {t : State}, t = s.withPorts t →
      (∀ x, f x = x.withPorts (f x)) → (if c then f t else t) = s.withPorts (if c then f t else t) := by
    intro c _ f t h hf
    split
    · exact withPorts_trans h (hf t)
    · exact h
  have hlog : logWrite p v s = s.withPorts (logWrite p v s) := rfl
  exact line (line (line hlog fun _ => rfl) (pagingWrite_eq v)) (ayWrite_eq p v)

/-- No port write reaches a paging latch on the 48K model. -/
theorem portWrite_paging_m48 {s : State} (h : s.cfg.model = .m48) (p : Word) (v : Byte) :
    (portWrite p v s).paging = s.paging := by
  have hp : reachesPaging s.cfg.model p = false := by rw [h]; rfl
  have ha : reachesAy s.cfg.model p = false := by rw [h]; rfl
  unfold portWrite ulaWrite
  simp only [hp, ha, Bool.false_eq_true, if_false]
  split_ifs <;> rfl

theorem Keeps.portWrite (p : Word) (v : Byte) (s : State) : Keeps s (portWrite p v s) where
  inputs := by
    rw [portWrite_eq]
    exact ⟨rfl, rfl, rfl, rfl, rfl⟩
  inv := by
    rintro ⟨h1, h2, h3, h4, h5⟩
    have hp := portWrite_paging_m48 (s := s) (p := p) (v := v)
    rw [portWrite_eq] at hp ⊢
    exact ⟨h1, h2, h3, h4, fun hm => (hp hm).trans (h5 hm)⟩

/-- `t` is `b` but for the registers of `W`, PC, the time, RAM, and what port writes change where `out` allows it. -/
structure Frame (W : List Reg) (out : Bool) (b t : State) : Prop where
  regs : ∀ g ∉ W, g.value t = g.value b
  refresh : t.r = b.r
  ports : out = false → SamePorts b t
  interrupts : SameInterrupts b t
  keeps : Keeps b t

/-- `t` with the registers (R apart), PC and the time of `u`. -/
def State.withRegs (t u : State) : State :=
  { t with
    a := u.a, f := u.f, b := u.b, c := u.c, d := u.d, e := u.e, h := u.h, l := u.l
    a' := u.a', f' := u.f', b' := u.b', c' := u.c', d' := u.d', e' := u.e', h' := u.h', l' := u.l'
    ix := u.ix, iy := u.iy, sp := u.sp, i := u.i, memptr := u.memptr, pc := u.pc, frameT := u.frameT }

/-- `t` with R and the interrupt state of `u`. -/
def State.withControl (t u : State) : State :=
  { t with
    r := u.r, iff1 := u.iff1, iff2 := u.iff2, im := u.im, halted := u.halted, inhibit := u.inhibit
    nmiPending := u.nmiPending, intState := u.intState }

/-- `s` after `m` opcode fetches, as far as R counts them (10_state R29). -/
def opFetched (m : Nat) (s : State) : State := { s with r := refreshed s.r m }

namespace Frame

variable {W : List Reg} {out : Bool} {b t u : State}

theorem refl (b : State) : Frame W out b b :=
  ⟨fun _ _ => rfl, rfl, fun _ => ⟨rfl, rfl, rfl, rfl, rfl, rfl, rfl⟩, ⟨rfl, rfl, rfl, rfl, rfl, rfl, rfl⟩,
    .of_same rfl⟩

/-- A frame with more registers allowed. -/
theorem mono {W' : List Reg} (h : Frame W out b t) (hw : W ⊆ W') : Frame W' out b t :=
  ⟨fun g hg => h.regs g fun hm => hg (hw hm), h.refresh, h.ports, h.interrupts, h.keeps⟩

/-- A change of registers of `W`, PC and the time only. -/
theorem write (h : Frame W out b t) (hw : ∀ g ∉ W, g.value u = g.value t) (hu : u = t.withRegs u) :
    Frame W out b u where
  regs g hg := (hw g hg).trans (h.regs g hg)
  refresh := (congrArg State.r hu).trans h.refresh
  ports := by rw [hu]; exact h.ports
  interrupts := by rw [hu]; exact h.interrupts
  keeps := by rw [hu]; exact h.keeps.trans (.of_same rfl)

/-- Either branch of a condition. -/
theorem ite {c : Prop} [Decidable c] (h : Frame W out b t) (h' : Frame W out b u) :
    Frame W out b (if c then t else u) := by
  split
  · exact h
  · exact h'

/-! ### Fetches and time -/

/-- Operand fetches and time. -/
theorem ran (h : Frame W out b t) (l : Nat) (cs : List Cycle) : Frame W out b (ran t l 0 cs) := by
  refine h.write (fun g _ => by cases g <;> rfl) ?_
  simp only [Machine.ran, refreshed_zero]
  rfl

theorem cycle (h : Frame W out b t) {a : Word} {n : Nat} : Frame W out b (cycle a n t) := by
  rw [cycle_ran]
  exact h.ran 0 _

theorem cycle16 (h : Frame W out b t) {a : Word} : Frame W out b (cycle16 a t) := h.cycle.cycle

theorem internal (h : Frame W out b t) {a : Word} {k : Nat} : Frame W out b (internal a k t) := by
  rw [internal_ran]
  exact h.ran 0 _

theorem ioCycle (h : Frame W out b t) {p : Word} : Frame W out b (ioCycle p t) := by
  rw [ioCycle_ran]
  exact h.ran 0 _

theorem tick (h : Frame W out b t) {n : Nat} : Frame W out b (tick n t) := by
  rw [tick_ran]
  exact h.ran 0 _

theorem fetch8 (h : Frame W out b t) : Frame W out b (fetch8 t) := by
  rw [fetch8_ran]
  exact h.ran 1 _

theorem fetch16 (h : Frame W out b t) : Frame W out b (fetch16 t) := h.fetch8.fetch8

/-- The fetches an instruction begins with, `m` of them opcode fetches. -/
theorem fetched (l m : Nat) (cs : List Cycle) (s : State) : Frame W out (opFetched m s) (Machine.ran s l m cs) :=
  (refl (opFetched m s)).write (fun g _ => by cases g <;> rfl) rfl

theorem fetchOp (s : State) : Frame W out (opFetched 1 s) (fetchOp s) := fetched 1 1 [.mem s.pc 4] s

theorem fetchOp2 (s : State) : Frame W out (opFetched 2 s) (fetchOp2 s) := by
  rw [fetchOp2_ran]
  exact fetched 2 2 _ s

theorem fetchIr (s : State) : Frame W out (opFetched 2 s) (fetchIr s) := (fetchOp2 s).internal

/-! ### Registers -/

theorem setR8 (h : Frame W out b t) {r : R8} {v : Byte} (hr : Reg.ofR8 r ∈ W) : Frame W out b (setR8 r v t) := by
  refine h.write (fun g hg => ?_) (by cases r <;> rfl)
  have hne : g ≠ Reg.ofR8 r := fun e => hg (e ▸ hr)
  cases r <;> cases g <;> first | rfl | exact absurd rfl hne

theorem setXy (h : Frame W out b t) {xy : XY} {v : Word} (hx : Reg.ofXy xy ∈ W) : Frame W out b (setXy xy v t) := by
  refine h.write (fun g hg => ?_) (by cases xy <;> rfl)
  have hne : g ≠ Reg.ofXy xy := fun e => hg (e ▸ hx)
  cases xy <;> cases g <;> first | rfl | exact absurd rfl hne

theorem f (h : Frame W out b t) {v : Byte} (hf : Reg.f ∈ W) : Frame W out b { t with f := v } :=
  h.write (fun g hg => by cases g <;> first | rfl | exact absurd hf hg) rfl

theorem memptr (h : Frame W out b t) {v : Word} (hm : Reg.memptr ∈ W) : Frame W out b { t with memptr := v } :=
  h.write (fun g hg => by cases g <;> first | rfl | exact absurd hm hg) rfl

theorem i (h : Frame W out b t) {v : Byte} (hi : Reg.i ∈ W) : Frame W out b { t with i := v } :=
  h.write (fun g hg => by cases g <;> first | rfl | exact absurd hi hg) rfl

theorem setSp (h : Frame W out b t) {v : Word} (hs : Reg.sp ∈ W) : Frame W out b (setSp v t) :=
  h.write (fun g hg => by cases g <;> first | rfl | exact absurd hs hg) rfl

theorem pc (h : Frame W out b t) {v : Word} : Frame W out b { t with pc := v } :=
  h.write (fun g _ => by cases g <;> rfl) rfl

/-- Two 8-bit registers, one after the other. -/
theorem setR8_setR8 (h : Frame W out b t) {r r' : R8} {v v' : Byte} (hr : [Reg.ofR8 r, Reg.ofR8 r'] ⊆ W) :
    Frame W out b (Machine.setR8 r' v' (Machine.setR8 r v t)) :=
  (h.setR8 (hr (by simp))).setR8 (hr (by simp))

/-! The fields that one record update writes together. -/

theorem af (h : Frame W out b t) {x y : Byte} (hw : [.a, .f] ⊆ W) : Frame W out b { t with a := x, f := y } :=
  (h.setR8 (r := .a) (v := x) (hw (.head _))).f (hw (by simp))

theorem aMemptr (h : Frame W out b t) {x : Byte} {y : Word} (hw : [.a, .memptr] ⊆ W) :
    Frame W out b { t with a := x, memptr := y } :=
  (h.setR8 (r := .a) (v := x) (hw (.head _))).memptr (hw (by simp))

theorem fMemptr (h : Frame W out b t) {x : Byte} {y : Word} (hw : [.f, .memptr] ⊆ W) :
    Frame W out b { t with f := x, memptr := y } :=
  (h.f (v := x) (hw (by simp))).memptr (hw (by simp))

theorem bfMemptr (h : Frame W out b t) {x y : Byte} {z : Word} (hw : [.b, .f, .memptr] ⊆ W) :
    Frame W out b { t with b := x, f := y, memptr := z } :=
  (h.setR8 (r := .b) (v := x) (hw (.head _))).fMemptr (x := y) fun _ hg => hw (.tail _ hg)

theorem afMemptr (h : Frame W out b t) {x y : Byte} {z : Word} (hw : [.a, .f, .memptr] ⊆ W) :
    Frame W out b { t with a := x, f := y, memptr := z } :=
  (h.setR8 (r := .a) (v := x) (hw (.head _))).fMemptr (x := y) fun _ hg => hw (.tail _ hg)

theorem jumpTo (h : Frame W out b t) {v : Word} (hm : Reg.memptr ∈ W) : Frame W out b (jumpTo v t) :=
  (h.pc (v := v)).memptr hm

/-! The views of the registers. -/

theorem setHalf (h : Frame W out b t) {xy : XY} {j : Half} {v : Byte} (hx : Reg.ofXy xy ∈ W) :
    Frame W out b (setHalf xy j v t) := by
  cases j <;> exact h.setXy hx

theorem setP8 (h : Frame W out b t) {xy : XY} {p : P8} {v : Byte} (hp : Reg.ofP8 xy p ∈ W) :
    Frame W out b (setP8 xy p v t) := by
  cases p with
  | b => exact h.setR8 (r := .b) hp
  | c => exact h.setR8 (r := .c) hp
  | d => exact h.setR8 (r := .d) hp
  | e => exact h.setR8 (r := .e) hp
  | a => exact h.setR8 (r := .a) hp
  | xyh => exact h.setHalf (j := .hi) hp
  | xyl => exact h.setHalf (j := .lo) hp

theorem setBc (h : Frame W out b t) {v : Word} (hw : [.b, .c] ⊆ W) : Frame W out b (setBc v t) :=
  h.setR8_setR8 (r := .b) (r' := .c) (v := hiByte v) (v' := loByte v) hw

theorem setDe (h : Frame W out b t) {v : Word} (hw : [.d, .e] ⊆ W) : Frame W out b (setDe v t) :=
  h.setR8_setR8 (r := .d) (r' := .e) (v := hiByte v) (v' := loByte v) hw

theorem setHl (h : Frame W out b t) {v : Word} (hw : [.h, .l] ⊆ W) : Frame W out b (setHl v t) :=
  h.setR8_setR8 (r := .h) (r' := .l) (v := hiByte v) (v' := loByte v) hw

theorem setDd (h : Frame W out b t) {p : DD} {v : Word} (hp : Reg.ofDd p ⊆ W) : Frame W out b (setDd p v t) := by
  cases p with
  | bc => exact h.setBc hp
  | de => exact h.setDe hp
  | hl => exact h.setHl hp
  | sp => exact h.setSp (hp (.head _))

theorem setQq (h : Frame W out b t) {p : QQ} {v : Word} (hp : Reg.ofQq p ⊆ W) : Frame W out b (setQq p v t) := by
  cases p with
  | bc => exact h.setBc hp
  | de => exact h.setDe hp
  | hl => exact h.setHl hp
  | af => exact h.af hp

/-! ### Stores, the stack, ports, the interrupt state -/

theorem write8 (h : Frame W out b t) {a : Word} {v : Byte} : Frame W out b (write8 a v t) where
  regs g hg := by
    rw [← h.regs g hg, write8_eq]
    cases g <;> rfl
  refresh := (write8_r a v t).trans h.refresh
  ports ho := by simpa [SamePorts] using h.ports ho
  interrupts := by simpa [SameInterrupts] using h.interrupts
  keeps := h.keeps.trans (.write8 a v t)

theorem store8 (h : Frame W out b t) {a : Word} {v : Byte} : Frame W out b (store8 a v t) := h.cycle.write8

theorem modify (h : Frame W out b t) {a : Word} {v : Byte} : Frame W out b (modify a v t) := h.cycle.cycle.store8

theorem push16 (h : Frame W out b t) {v : Word} (hs : Reg.sp ∈ W) : Frame W out b (push16 v t) :=
  ((h.setSp hs).store8.setSp hs).store8

theorem pop16 (h : Frame W out b t) (hs : Reg.sp ∈ W) : Frame W out b (pop16 t) :=
  h.cycle16.setSp hs

theorem popPc (h : Frame W out b t) (hw : [.sp, .memptr] ⊆ W) : Frame W out b (popPc t) :=
  (h.pop16 (hw (by simp))).jumpTo (hw (by simp))

theorem indexed (s : State) {xy : XY} {d : Byte} (hm : Reg.memptr ∈ W) :
    Frame W out (opFetched 2 s) (indexed xy d s) := (fetchOp2 s).fetch8.internal.memptr hm

theorem indexed4 (s : State) {xy : XY} {d : Byte} (hm : Reg.memptr ∈ W) :
    Frame W out (opFetched 2 s) (indexed4 xy d s) := (fetchOp2 s).fetch16.internal.memptr hm

/-- A change of R and the interrupt state that the state compared with has too. -/
theorem control (h : Frame W out b t) {b' t' : State} (hb : b' = b.withControl b') (ht : t' = t.withControl t')
    (hr : t'.r = b'.r) (hi : SameInterrupts b' t') : Frame W out b' t' where
  regs g hg := by
    have hv : ∀ x y : State, g.value (x.withControl y) = g.value x := fun x y => by cases g <;> rfl
    rw [hb, ht, hv, hv, h.regs g hg]
  refresh := hr
  ports := by rw [hb, ht]; exact h.ports
  interrupts := hi
  keeps := by
    have hk : Keeps b' b := by rw [hb]; exact .of_same rfl
    rw [ht]
    exact (hk.trans h.keeps).trans (.of_same rfl)

/-- A port write, where `out` allows it. -/
theorem portWrite (h : Frame W true b t) {p : Word} {v : Byte} : Frame W true b (portWrite p v t) where
  regs g hg := by
    rw [← h.regs g hg, portWrite_eq]
    cases g <;> rfl
  refresh := by rw [portWrite_eq]; exact h.refresh
  ports ho := absurd ho (by decide)
  interrupts := by rw [portWrite_eq]; exact h.interrupts
  keeps := h.keeps.trans (.portWrite p v t)

theorem outCycle (h : Frame W true b t) {p : Word} {v : Byte} : Frame W true b (outCycle p v t) :=
  (h.portWrite (p := p) (v := v)).write (fun g _ => by cases g <;> rfl) rfl

end Frame

end Sys2Proof.Machine
end

section
/-! PROOFS. The frames of the meanings that instructions share, each once. -/

namespace Sys2Proof.Machine

/-- The answer is a next state, and it meets `P`. -/
def Answers (P : State → Prop) : Result → Prop
  | .next t => P t
  | _ => False

theorem Answers.of_next {P : State → Prop} {R : Result} {t : State} (h : Answers P R) (ht : R = .next t) : P t := by
  rw [ht] at h
  exact h

theorem Answers.mono {P Q : State → Prop} {R : Result} (h : Answers P R) (hpq : ∀ t, P t → Q t) : Answers Q R := by
  cases R with
  | next t => exact hpq t h
  | fault r => exact h
  | refused r => exact h

section Meanings

variable {out : Bool} {s : State}

/-! ### The shared meanings -/

section Alu
variable (op : Byte → Byte → Bool → Byte × Byte)

theorem aluReg_frame (r : R8) : Answers (Frame [.a, .f] out (opFetched 1 s)) (aluReg op r s) :=
  (Frame.fetchOp s).af (by simp)

theorem aluImm_frame (n : Byte) : Answers (Frame [.a, .f] out (opFetched 1 s)) (aluImm op n s) :=
  (Frame.fetchOp s).fetch8.af (by simp)

theorem aluHl_frame : Answers (Frame [.a, .f] out (opFetched 1 s)) (aluHl op s) :=
  (Frame.fetchOp s).cycle.af (by simp)

theorem aluXy_frame (xy : XY) (d : Byte) :
    Answers (Frame [.a, .f, .memptr] out (opFetched 2 s)) (aluXy op xy d s) :=
  (Frame.indexed s (by simp)).cycle.af (by simp)

theorem aluHalf_frame (xy : XY) (j : Half) : Answers (Frame [.a, .f] out (opFetched 2 s)) (aluHalf op xy j s) :=
  (Frame.fetchOp2 s).af (by simp)

/-- CP keeps A. -/
theorem Frame.cp {W : List Reg} {b t : State} (h : Frame W out b t) {v : Byte} (hf : Reg.f ∈ W) :
    Frame W out b (aluApply aluCp v t) := h.f hf

end Alu

section Step
variable (op : Byte → Byte → Byte × Byte)

theorem stepReg_frame (r : R8) : Answers (Frame [.f, Reg.ofR8 r] out (opFetched 1 s)) (stepReg op r s) :=
  ((Frame.fetchOp s).f (by simp)).setR8 (by simp)

theorem stepHl_frame : Answers (Frame [.f] out (opFetched 1 s)) (stepHl op s) :=
  (Frame.fetchOp s).modify.f (by simp)

theorem stepXy_frame (xy : XY) (d : Byte) :
    Answers (Frame [.f, .memptr] out (opFetched 2 s)) (stepXy op xy d s) :=
  (Frame.indexed s (by simp)).modify.f (by simp)

theorem stepHalf_frame (xy : XY) (j : Half) :
    Answers (Frame [.f, Reg.ofXy xy] out (opFetched 2 s)) (stepHalf op xy j s) :=
  ((Frame.fetchOp2 s).f (by simp)).setHalf (by simp)

end Step

section Rotate
variable (op : Byte → Bool → Byte × Byte)

theorem rotReg_frame (r : R8) : Answers (Frame [.f, Reg.ofR8 r] out (opFetched 2 s)) (rotReg op r s) :=
  ((Frame.fetchOp2 s).f (by simp)).setR8 (by simp)

theorem rotHl_frame : Answers (Frame [.f] out (opFetched 2 s)) (rotHl op s) :=
  (Frame.fetchOp2 s).modify.f (by simp)

theorem rotIndexed_frame {W : List Reg} (xy : XY) (d : Byte) (hw : [.f, .memptr] ⊆ W) :
    Frame W out (opFetched 2 s) (rotIndexed op xy d s) :=
  (Frame.indexed4 s (hw (by simp))).modify.f (hw (by simp))

theorem rotXy_frame (xy : XY) (d : Byte) : Answers (Frame [.f, .memptr] out (opFetched 2 s)) (rotXy op xy d s) :=
  rotIndexed_frame op xy d (by simp)

theorem rotXyR_frame (xy : XY) (d : Byte) (r : R8) :
    Answers (Frame [.f, .memptr, Reg.ofR8 r] out (opFetched 2 s)) (rotXyR op xy d r s) :=
  (rotIndexed_frame op xy d (by simp)).setR8 (by simp)

theorem rotDigits_frame (m a : Byte) :
    Answers (Frame [.a, .f, .memptr] out (opFetched 2 s)) (rotDigits m a s) :=
  (Frame.fetchOp2 s).cycle.internal.store8.afMemptr (by simp)

end Rotate

section Bit
variable (op : Byte → BitVec 3 → Byte) (bit : BitVec 3)

theorem bitReg_frame (r : R8) : Answers (Frame [Reg.ofR8 r] out (opFetched 2 s)) (bitReg op bit r s) :=
  (Frame.fetchOp2 s).setR8 (by simp)

theorem bitHl_frame : Answers (Frame [] out (opFetched 2 s)) (bitHl op bit s) := (Frame.fetchOp2 s).modify

theorem bitIndexed_frame {W : List Reg} (xy : XY) (d : Byte) (hm : Reg.memptr ∈ W) :
    Frame W out (opFetched 2 s) (bitIndexed op xy bit d s) := (Frame.indexed4 s hm).modify

theorem bitXyR_frame (xy : XY) (d : Byte) (r : R8) :
    Answers (Frame [.memptr, Reg.ofR8 r] out (opFetched 2 s)) (bitXyR op xy bit d r s) :=
  (bitIndexed_frame op bit xy d (by simp)).setR8 (by simp)

end Bit

theorem transfer_frame {W : List Reg} (delta : Word) (hw : [.f, .b, .c, .d, .e, .h, .l] ⊆ W) :
    Frame W out (opFetched 2 s) (transfer delta s) := by
  have moved : Frame [.f, .b, .c, .d, .e, .h, .l] out (opFetched 2 s) (transfer delta s) :=
    ((((Frame.fetchOp2 s).cycle.store8.internal.f (by simp)).setHl (by simp)).setDe (by simp)).setBc (by simp)
  exact moved.mono hw

theorem search_frame (delta : Word) :
    Frame [.f, .b, .c, .h, .l, .memptr] out (opFetched 2 s) (search delta s) :=
  (((Frame.fetchOp2 s).cycle.internal.fMemptr (by simp)).setHl (by simp)).setBc (by simp)

theorem blockIn_frame (delta : Word) : Frame [.f, .b, .h, .l, .memptr] out (opFetched 2 s) (blockIn delta s) :=
  ((Frame.fetchIr s).ioCycle.store8.bfMemptr (by simp)).setHl (by simp)

theorem blockOut_frame (delta : Word) : Frame [.f, .b, .h, .l, .memptr] true (opFetched 2 s) (blockOut delta s) :=
  ((Frame.fetchIr s).cycle.outCycle.bfMemptr (by simp)).setHl (by simp)

theorem outBc_frame (v : Byte) : Answers (Frame [.memptr] true (opFetched 2 s)) (outBc v s) :=
  (Frame.fetchOp2 s).outCycle.memptr (by simp)

/-! ### The shared parts that follow the fetches -/

section Parts
variable {W : List Reg} {b t : State}

theorem add16_frame (h : Frame [.f, .h, .l, .memptr] out b t) {f : Byte} {p v : Word} {k : Nat} :
    Frame [.f, .h, .l, .memptr] out b (setHl v { internalIr k t with f := f, memptr := p }) :=
  (h.internal.fMemptr (by simp)).setHl (by simp)

theorem Frame.repeatPc (h : Frame W out b t) : Frame W out b (repeatPc t) := h.pc

theorem repeatBlock_frame (h : Frame W out b t) {a : Word} (hm : Reg.memptr ∈ W) :
    Frame W out b (repeatBlock a t) := h.internal.repeatPc.memptr hm

theorem exchangeTop_frame (h : Frame W out b t) {v : Word} (hm : Reg.memptr ∈ W) :
    Frame W out b (exchangeTop v t) := h.cycle16.cycle.store8.store8.internal.memptr hm

theorem jumpRel_frame (h : Frame W out b t) {e : Byte} (hm : Reg.memptr ∈ W) : Frame W out b (jumpRel e t) :=
  h.internal.jumpTo hm

theorem jumpRelIf_frame (h : Frame W out b t) {c : Bool} {e : Byte} (hm : Reg.memptr ∈ W) :
    Answers (Frame W out b) (jumpRelIf c e t) := (jumpRel_frame h hm).ite h

theorem callTo_frame (h : Frame [.sp, .memptr] out b t) {nn : Word} :
    Frame [.sp, .memptr] out b (callTo nn t) := (h.internal.push16 (by simp)).jumpTo (by simp)

theorem loadWord_frame (h : Frame W out b t) {nn : Word} (hm : Reg.memptr ∈ W) :
    Frame W out b (loadWord nn t) := h.cycle16.memptr hm

theorem storeWord_frame (h : Frame [.memptr] out b t) {nn v : Word} :
    Answers (Frame [.memptr] out b) (storeWord nn v t) := h.store8.store8.memptr (by simp)

theorem loadSp_frame (h : Frame [.sp] out b t) {v : Word} : Answers (Frame [.sp] out b) (loadSp v t) :=
  (h.internal (a := t.ir) (k := 2)).setSp (by simp)

theorem pushAfterIr_frame (h : Frame [.sp] out b t) {v : Word} : Frame [.sp] out b (pushAfterIr v t) :=
  h.internal.push16 (by simp)

theorem loadA_frame (h : Frame [.a, .memptr] out b t) {a : Word} :
    Answers (Frame [.a, .memptr] out b) (loadA a t) := h.cycle.aMemptr (by simp)

theorem storeA_frame (h : Frame [.memptr] out b t) {a : Word} : Answers (Frame [.memptr] out b) (storeA a t) :=
  h.store8.memptr (by simp)

end Parts

end Meanings

end Sys2Proof.Machine
end

section
/-! PROOFS. The frame of every instruction: one arm per instruction, in the order of the rules. -/

namespace Sys2Proof.Machine

/-- `s` with what an instruction leaves in R and in the interrupt state (10_state R29 to R36). -/
def frameBase (i : Instr) (s : State) : State :=
  { s with
    r := match i with | .ldRA => s.a | _ => refreshed s.r (opFetches i)
    iff1 := match i with | .ei => true | .di => false | .reti | .retn _ => s.iff2 | _ => s.iff1
    iff2 := match i with | .ei => true | .di => false | _ => s.iff2
    im := match i with | .im0 _ _ => .im0 | .im1 _ => .im1 | .im2 _ => .im2 | _ => s.im
    halted := match i with | .halt => true | _ => s.halted
    inhibit := match i with | .ei | .noni _ => true | _ => s.inhibit }

/-- Every instruction answers a next state and leaves as it was what the spec does not name: the registers outside its
destinations, the inputs, the interrupt state but for what `frameBase` says, and, unless it writes a port, the latches. -/
theorem exec_frame (i : Instr) (s : State) :
    Answers (Frame (destsOf i) (writesPort i) (frameBase i s)) (exec i s) := by
  have one : ∀ {W out}, Frame W out (opFetched 1 s) (fetchOp s) := Frame.fetchOp s
  have two : ∀ {W out}, Frame W out (opFetched 2 s) (fetchOp2 s) := Frame.fetchOp2 s
  obtain ⟨-, r1, -, ⟨h1, h2, hm, hh, hi, hr⟩, -⟩ : Frame [] false (opFetched 1 s) (fetchOp s) := one
  obtain ⟨-, r2, -, ⟨g1, g2, gm, gh, gi, gr⟩, -⟩ : Frame [] false (opFetched 2 s) (fetchOp2 s) := two
  cases i with dsimp only [destsOf]
  -- 40_load8
  | ldRR r r' => exact one.setR8 (by simp)
  | ldRN r n => cases r <;> exact one.fetch8.setR8 (by simp)
  | ldRMemHl r => exact one.cycle.setR8 (by simp)
  | ldMemHlR r => exact one.store8
  | ldMemHlN n => exact one.fetch8.store8
  | ldRMemXy xy r d => cases xy <;> exact (Frame.indexed s (by simp)).cycle.setR8 (by simp)
  | ldMemXyR xy r d => cases xy <;> exact (Frame.indexed s (by simp)).store8
  | ldMemXyN xy d n => cases xy <;> exact (Frame.indexed4 s (by simp)).store8
  | ldAMemBc | ldAMemDe => exact loadA_frame one
  | ldAMemNn nn => exact loadA_frame one.fetch16
  | ldMemBcA | ldMemDeA => exact storeA_frame one
  | ldMemNnA nn => exact storeA_frame one.fetch16
  | ldAI | ldAR => exact (Frame.fetchIr s).af (by simp)
  | ldIA => exact (Frame.fetchIr s).i (by simp)
  | ldRA =>
    have h := Frame.fetchIr (W := []) (out := false) s
    exact h.control rfl rfl (show (fetchIr s).a = s.a by rw [fetchIr_ran, ran_a]) h.interrupts
  | ldPP xy p p' => cases xy <;> exact two.setP8 (by simp)
  | ldXyHalfN xy j n => cases xy <;> exact two.fetch8.setHalf (by simp)
  -- 41_load16
  | ldDdNn dd nn => cases dd <;> exact one.fetch16.setDd (by simp)
  | ldXyNn xy nn => cases xy <;> exact two.fetch16.setXy (by simp)
  | ldHlMemNn nn => exact (loadWord_frame one.fetch16 (by simp)).setHl (by simp)
  | ldDdMemNn dd nn => exact (loadWord_frame two.fetch16 (by simp)).setDd (by simp)
  | ldXyMemNn xy nn => cases xy <;> exact (loadWord_frame two.fetch16 (by simp)).setXy (by simp)
  | ldMemNnHl nn => exact storeWord_frame one.fetch16
  | ldMemNnDd dd nn => exact storeWord_frame two.fetch16
  | ldMemNnXy xy nn => cases xy <;> exact storeWord_frame two.fetch16
  | ldSpHl => exact loadSp_frame one
  | ldSpXy xy => cases xy <;> exact loadSp_frame two
  | pushQq qq => exact pushAfterIr_frame one
  | pushXy xy => cases xy <;> exact pushAfterIr_frame two
  | popQq qq => exact (one.pop16 (by simp)).setQq (by simp)
  | popXy xy => cases xy <;> exact (two.pop16 (by simp)).setXy (by simp)
  -- 42_exchange_block
  | exDeHl => exact one.write (fun g hg => by cases g <;> first | rfl | simp at hg) rfl
  | exAfAf => exact one.write (fun g hg => by cases g <;> first | rfl | simp at hg) rfl
  | exx => exact one.write (fun g hg => by cases g <;> first | rfl | simp at hg) rfl
  | exSpHl => exact (exchangeTop_frame one (by simp)).setHl (by simp)
  | exSpXy xy => cases xy <;> exact (exchangeTop_frame two (by simp)).setXy (by simp)
  | ldi | ldd => exact transfer_frame _ (by simp)
  | ldir | lddr => exact (repeatBlock_frame (transfer_frame _ (by simp)) (by simp)).ite (transfer_frame _ (by simp))
  | cpi | cpd => exact search_frame _
  | cpir | cpdr => exact (repeatBlock_frame (search_frame _) (by simp)).ite (search_frame _)
  -- 43_arith8
  | addR r | adcR r | subR r | sbcR r | andR r | xorR r | orR r => exact aluReg_frame _ r
  | addN n | adcN n | subN n | sbcN n | andN n | xorN n | orN n => exact aluImm_frame _ n
  | addMemHl | adcMemHl | subMemHl | sbcMemHl | andMemHl | xorMemHl | orMemHl => exact aluHl_frame _
  | addMemXy xy d | adcMemXy xy d | subMemXy xy d | sbcMemXy xy d | andMemXy xy d | xorMemXy xy d | orMemXy xy d =>
    cases xy <;> exact aluXy_frame _ _ d
  | addXyHalf xy j | adcXyHalf xy j | subXyHalf xy j | sbcXyHalf xy j | andXyHalf xy j | xorXyHalf xy j
  | orXyHalf xy j => cases xy <;> exact aluHalf_frame _ _ j
  | cpR r => exact one.cp (by simp)
  | cpN n => exact one.fetch8.cp (by simp)
  | cpMemHl => exact one.cycle.cp (by simp)
  | cpMemXy xy d => cases xy <;> exact (Frame.indexed s (by simp)).cycle.cp (by simp)
  | cpXyHalf xy j => cases xy <;> exact two.cp (by simp)
  | incR r | decR r => exact stepReg_frame _ r
  | incMemHl | decMemHl => exact stepHl_frame _
  | incMemXy xy d | decMemXy xy d => cases xy <;> exact stepXy_frame _ _ d
  | incXyHalf xy j | decXyHalf xy j => cases xy <;> exact stepHalf_frame _ _ j
  -- 44_general_control
  | daa | cpl => exact one.af (by simp)
  | neg u => exact two.af (by simp)
  | ccf | scf => exact one.f (by simp)
  | nop => exact one
  | halt => exact one.control rfl rfl r1 ⟨h1, h2, hm, rfl, hi, hr⟩
  | di => exact one.control rfl rfl r1 ⟨rfl, rfl, hm, hh, hi, hr⟩
  | ei => exact one.control rfl rfl r1 ⟨rfl, rfl, hm, hh, rfl, hr⟩
  | im0 u v => exact two.control rfl rfl r2 ⟨g1, g2, rfl, gh, gi, gr⟩
  | im1 u => exact two.control rfl rfl r2 ⟨g1, g2, rfl, gh, gi, gr⟩
  | im2 u => exact two.control rfl rfl r2 ⟨g1, g2, rfl, gh, gi, gr⟩
  | nopEd7 u | nopEd0 x | nopEd8 x | nopEdA x x' | nopEdC x => exact two
  | noni xy => exact one.control rfl rfl r1 ⟨h1, h2, hm, hh, rfl, hr⟩
  -- 45_arith16
  | addHlSs ss => exact add16_frame one
  | adcHlSs ss | sbcHlSs ss => exact add16_frame two
  | addXyPp xy pp => cases xy <;> exact (two.internal.fMemptr (by simp)).setXy (by simp)
  | incSs ss | decSs ss => exact one.internal.setDd (by simp)
  | incXy xy | decXy xy => cases xy <;> exact two.internal.setXy (by simp)
  -- 46_rotate_shift
  | rlca | rla | rrca | rra => exact one.af (by simp)
  | rlcR r | rrcR r | rlR r | rrR r | slaR r | sraR r | sllR r | srlR r => exact rotReg_frame _ r
  | rlcMemHl | rrcMemHl | rlMemHl | rrMemHl | slaMemHl | sraMemHl | sllMemHl | srlMemHl => exact rotHl_frame _
  | rlcMemXy xy d | rrcMemXy xy d | rlMemXy xy d | rrMemXy xy d | slaMemXy xy d | sraMemXy xy d | sllMemXy xy d
  | srlMemXy xy d => cases xy <;> exact rotXy_frame _ _ d
  | rlcMemXyR xy d r | rrcMemXyR xy d r | rlMemXyR xy d r | rrMemXyR xy d r | slaMemXyR xy d r | sraMemXyR xy d r
  | sllMemXyR xy d r | srlMemXyR xy d r => cases xy <;> exact rotXyR_frame _ _ d r
  | rld | rrd => exact rotDigits_frame _ _
  -- 47_bit
  | bitR bit r => exact two.f (by simp)
  | bitMemHl bit => exact two.cycle.cycle.f (by simp)
  | bitMemXy xy bit d z => cases xy <;> exact (Frame.indexed4 s (by simp)).cycle.cycle.f (by simp)
  | setR bit r | resR bit r => exact bitReg_frame _ bit r
  | setMemHl bit | resMemHl bit => exact bitHl_frame _ bit
  | setMemXy xy bit d | resMemXy xy bit d => cases xy <;> exact bitIndexed_frame _ bit _ d (by simp)
  | setMemXyR xy bit d r | resMemXyR xy bit d r => cases xy <;> exact bitXyR_frame _ bit _ d r
  -- 48_jump_call_return
  | jpNn nn => exact one.fetch16.jumpTo (by simp)
  | jpCcNn cc nn => cases cc <;> exact (one.fetch16.jumpTo (by simp)).ite (one.fetch16.memptr (by simp))
  | jr e => exact jumpRel_frame one.fetch8 (by simp)
  | jrC e | jrNc e | jrZ e | jrNz e => exact jumpRelIf_frame one.fetch8 (by simp)
  | jpHl => exact one.pc
  | jpXy xy => cases xy <;> exact two.pc
  | djnz e => exact jumpRelIf_frame (one.internal.fetch8.setR8 (r := .b) (by simp [Reg.ofR8])) (by simp)
  | callNn nn => exact callTo_frame one.fetch16
  | callCcNn cc nn => cases cc <;> exact (callTo_frame one.fetch16).ite (one.fetch16.memptr (by simp))
  | ret => exact one.popPc (by simp)
  | retCc cc => exact (one.internal.popPc (by simp)).ite one.internal
  | reti => exact .popPc (two.control rfl rfl r2 ⟨g2, g2, gm, gh, gi, gr⟩) (by simp)
  | retn u => exact .popPc (two.control rfl rfl r2 ⟨g2, g2, gm, gh, gi, gr⟩) (by simp)
  | rst t => exact (one.internal.push16 (by simp)).jumpTo (by simp)
  -- 49_io
  | inAN n => exact one.fetch8.ioCycle.aMemptr (by simp)
  | inRC r => exact (two.ioCycle.fMemptr (by simp)).setR8 (by simp)
  | inC => exact two.ioCycle.fMemptr (by simp)
  | ini | ind => exact blockIn_frame _
  | inir | indr => exact (blockIn_frame _).internal.repeatPc.ite (blockIn_frame _)
  | outNA n => exact one.fetch8.outCycle.memptr (by simp)
  | outCR r | outC0 => exact outBc_frame _
  | outi | outd => exact blockOut_frame _
  | otir | otdr => exact (blockOut_frame _).internal.repeatPc.ite (blockOut_frame _)

end Sys2Proof.Machine
end

section
/-! PROOFS. The statements of 10_state: what every step keeps, and the frames. -/

namespace Sys2Proof.Machine

/-! ### The step -/

theorem enterTrap_frame (n : Nat) (s : State) :
    Frame [.sp, .memptr] false { s with halted := false, iff1 := false, r := refreshed s.r 1 } (enterTrap n s) :=
  (Frame.refl _).tick.push16 (by simp)

theorem intResponse_frame {s t : State} (h : intResponse s = .next t) :
    Frame [.sp, .memptr] false
      { s with intState := .serviced, iff2 := false, halted := false, iff1 := false, r := refreshed s.r 1 } t := by
  have entered := enterTrap_frame 7 { s with intState := .serviced, iff2 := false }
  unfold intResponse at h
  split at h
  · split at h <;> cases h
    exact entered.jumpTo (by simp)
  · cases h
    exact entered.jumpTo (by simp)
  · cases h
    exact entered.cycle16.jumpTo (by simp)

/-- What a step that runs no instruction leaves as it was, and its one count of R (10_state R29). -/
theorem cpuStep_response {s t : State} (h : cpuStep s = .next t) (hk : stepKind s ≠ .instruction) :
    ∃ b, Keeps s b ∧ b.r = refreshed s.r 1 ∧ Frame [.sp, .memptr] false b t := by
  unfold cpuStep at h
  cases hs : stepKind s <;> simp only [hs] at h
  case nmi =>
    cases h
    have entered := enterTrap_frame 5 { s with inhibit := false, nmiPending := false }
    refine ⟨_, ?_, ?_, entered.jumpTo (by simp)⟩
    · exact .of_same rfl
    · rfl
  case int =>
    refine ⟨_, ?_, ?_, intResponse_frame h⟩
    · exact .of_same rfl
    · rfl
  case haltedCycle =>
    cases h
    exact ⟨{ s with inhibit := false, r := refreshed s.r 1 }, .of_same rfl, rfl,
      (Frame.refl _).write (fun g _ => by cases g <;> rfl) rfl⟩
  case instruction => exact absurd hs hk

theorem frameBase_keeps (i : Instr) (s : State) : Keeps s (frameBase i s) := .of_same rfl

theorem exec_keeps {i : Instr} {s t : State} (h : exec i s = .next t) : Keeps s t :=
  (frameBase_keeps i s).trans ((exec_frame i s).of_next h).keeps

theorem cpuStep_keeps {s t : State} (h : cpuStep s = .next t) : Keeps s t := by
  by_cases hk : stepKind s = .instruction
  · unfold cpuStep runInstr at h
    simp only [hk] at h
    split at h
    · exact (Keeps.of_same (s := s) (t := { s with inhibit := false }) rfl).trans (exec_keeps h)
    · cases h
  · obtain ⟨b, hb, -, hf⟩ := cpuStep_response h hk
    exact hb.trans hf.keeps

theorem raiseInt_keeps (s : State) : Keeps s (raiseInt s) := by
  unfold raiseInt
  split <;> exact .of_same rfl

theorem startFrame_keeps (s : State) : Keeps s (startFrame s) := .of_same rfl

theorem endFrame_keeps (s : State) : Keeps s (endFrame s) := by
  unfold endFrame raiseLate
  split <;> exact .of_same rfl

theorem coordinate_keeps (s : State) : Keeps s (coordinate s) := by
  unfold coordinate
  split
  · exact .refl s
  · split
    · exact ((endFrame_keeps s).trans (startFrame_keeps _)).trans (raiseInt_keeps _)
    · exact raiseInt_keeps s

theorem step_keeps {s t : State} (h : step s = .next t) : Keeps s t :=
  (coordinate_keeps s).trans (cpuStep_keeps h)

/-- Settles O48: every step keeps the invariant, since every store, port write and response does. -/
theorem stepKeepsInv : Obligations.StepKeepsInv := fun _ _ hs h => (step_keeps h).inv hs

/-- Settles O49: the banks of `State.reset` list no byte. -/
theorem resetInv : Obligations.ResetInv := ⟨reset_rom_wf, reset_ram_wf, rfl, rfl, fun _ => rfl⟩

/-- Settles O50: no operation a step is made of writes an input. -/
theorem stepKeepsInputs : Obligations.StepKeepsInputs := fun _ _ h => (step_keeps h).inputs

/-! ### The frames of instructions -/

theorem frameBase_value (i : Instr) (s : State) (g : Reg) : g.value (frameBase i s) = g.value s := by cases g <;> rfl

/-- Settles O51, by the frame of every instruction. -/
theorem registerFrame : Obligations.RegisterFrame := fun i s _ h g hg =>
  (((exec_frame i s).of_next h).regs g hg).trans (frameBase_value i s g)

/-- Settles O54, by the frame of every instruction. -/
theorem portFrame : Obligations.PortFrame := fun i s _ h hp => ((exec_frame i s).of_next h).ports hp

/-- Settles O55: what `frameBase` says of the interrupt state is what every instruction leaves. -/
theorem interruptFrame : Obligations.InterruptFrame := by
  intro i s t h
  obtain ⟨h1, h2, hm, hh, hi, hn, hr⟩ := ((exec_frame i s).of_next h).interrupts
  exact ⟨h1, h2, hm, hh, hi, hr, hn⟩

/-! ### R -/

/-- The count as the statements write it, from the old R as a number. -/
theorem refreshed_eq (r : Byte) (m : Nat) :
    refreshed r m = r.extractLsb' 7 1 ++ BitVec.ofNat 7 (r.toNat % 128 + m) := by
  have hc : r.extractLsb' 0 7 = BitVec.ofNat 7 (r.toNat % 128) := by
    apply BitVec.eq_of_toNat_eq
    simp
  rw [refreshed, hc, BitVec.ofNat_add]

theorem frameBase_r (i : Instr) (s : State) :
    (frameBase i s).r = if i = .ldRA then s.a else refreshed s.r (opFetches i) := by
  unfold frameBase
  split
  · rfl
  · rw [if_neg ‹_›]

/-- Settles O43: R is that of `frameBase` after an instruction, and `cpuStep_response` counts once for the rest. -/
theorem refreshCount : Obligations.RefreshCount := by
  refine ⟨fun i s t h => ?_, fun s t h => ?_, fun s t h hk => ?_⟩
  · rw [((exec_frame i s).of_next h).refresh, frameBase_r, refreshed_eq]
  · cases h
    rfl
  · obtain ⟨b, -, hb, hf⟩ := cpuStep_response h hk
    rw [hf.refresh, hb, refreshed_eq]

end Sys2Proof.Machine
end

section
/-! PROOFS. The flags (10_state R27): each flag function keeps the bits the flag table does not name. -/

namespace Sys2Proof.Machine

/-- Every bit outside the mask is as it was. -/
def FlagsKept (mask f f' : Byte) : Prop := ∀ k, k < 8 → mask.getLsbD k = false → f'.getLsbD k = f.getLsbD k

theorem FlagsKept.of_eq {mask f f' : Byte} (h : f' = f) : FlagsKept mask f f' := by
  subst h
  exact fun _ _ _ => rfl

/-- The full mask says nothing. -/
theorem FlagsKept.all (f f' : Byte) : FlagsKept 0xFF f f' := by
  intro k hk hm
  interval_cases k <;> simp at hm

theorem FlagsKept.ite {mask f : Byte} {c : Prop} [Decidable c] {t u : State} (hx : FlagsKept mask f t.f)
    (hy : FlagsKept mask f u.f) : FlagsKept mask f (if c then t else u).f := by
  split
  · exact hx
  · exact hy

section

variable (fS fZ fY fH fX fPV fN fC : Bool)

@[simp] theorem flagS_mkF : flagS (mkF fS fZ fY fH fX fPV fN fC) = fS := by
  simp only [flagS, mkF, BitVec.getLsbD_append]
  simp
@[simp] theorem flagZ_mkF : flagZ (mkF fS fZ fY fH fX fPV fN fC) = fZ := by
  simp only [flagZ, mkF, BitVec.getLsbD_append]
  simp
@[simp] theorem flagY_mkF : flagY (mkF fS fZ fY fH fX fPV fN fC) = fY := by
  simp only [flagY, mkF, BitVec.getLsbD_append]
  simp
@[simp] theorem flagH_mkF : flagH (mkF fS fZ fY fH fX fPV fN fC) = fH := by
  simp only [flagH, mkF, BitVec.getLsbD_append]
  simp
@[simp] theorem flagX_mkF : flagX (mkF fS fZ fY fH fX fPV fN fC) = fX := by
  simp only [flagX, mkF, BitVec.getLsbD_append]
  simp
@[simp] theorem flagPV_mkF : flagPV (mkF fS fZ fY fH fX fPV fN fC) = fPV := by
  simp only [flagPV, mkF, BitVec.getLsbD_append]
  simp
@[simp] theorem flagN_mkF : flagN (mkF fS fZ fY fH fX fPV fN fC) = fN := by
  simp only [flagN, mkF, BitVec.getLsbD_append]
  simp
@[simp] theorem flagC_mkF : flagC (mkF fS fZ fY fH fX fPV fN fC) = fC := by
  simp only [flagC, mkF, BitVec.getLsbD_append]
  simp

end

/-- A flag byte written bit by bit: each bit is in the mask or is the old one. -/
theorem flagsKept_mkF {mask f : Byte} {fS fZ fY fH fX fPV fN fC : Bool}
    (h : (mask.getLsbD 7 = true ∨ fS = flagS f) ∧ (mask.getLsbD 6 = true ∨ fZ = flagZ f) ∧
      (mask.getLsbD 5 = true ∨ fY = flagY f) ∧ (mask.getLsbD 4 = true ∨ fH = flagH f) ∧
      (mask.getLsbD 3 = true ∨ fX = flagX f) ∧ (mask.getLsbD 2 = true ∨ fPV = flagPV f) ∧
      (mask.getLsbD 1 = true ∨ fN = flagN f) ∧ (mask.getLsbD 0 = true ∨ fC = flagC f)) :
    FlagsKept mask f (mkF fS fZ fY fH fX fPV fN fC) := by
  obtain ⟨hS, hZ, hY, hH, hX, hPV, hN, hC⟩ := h
  intro k hk hm
  have kept : ∀ {v w : Bool}, mask.getLsbD k = true ∨ v = w → v = w := fun h => h.resolve_left (by simp [hm])
  interval_cases k
  · exact (flagC_mkF ..).trans (kept hC)
  · exact (flagN_mkF ..).trans (kept hN)
  · exact (flagPV_mkF ..).trans (kept hPV)
  · exact (flagX_mkF ..).trans (kept hX)
  · exact (flagH_mkF ..).trans (kept hH)
  · exact (flagY_mkF ..).trans (kept hY)
  · exact (flagZ_mkF ..).trans (kept hZ)
  · exact (flagS_mkF ..).trans (kept hS)

theorem accRotFlags_kept (f a : Byte) (c : Bool) : FlagsKept 0x3B f (accRotFlags f a c) := flagsKept_mkF (by simp)

theorem ccfFlags_kept (f a : Byte) : FlagsKept 0x3B f (ccfFlags f a) := flagsKept_mkF (by simp)

theorem scfFlags_kept (f a : Byte) : FlagsKept 0x3B f (scfFlags f a) := flagsKept_mkF (by simp)

theorem add16_kept (a b : Word) (f : Byte) : FlagsKept 0x3B f (add16 a b f).2 := flagsKept_mkF (by simp)

theorem cplFlags_kept (f a : Byte) : FlagsKept 0x3A f (cplFlags f a) := flagsKept_mkF (by simp)

theorem ldBlockFlags_kept (f a v : Byte) (bc : Word) : FlagsKept 0x3E f (ldBlockFlags f a v bc) :=
  flagsKept_mkF (by simp)

theorem cpBlockFlags_kept (f a v : Byte) (bc : Word) : FlagsKept 0xFE f (cpBlockFlags f a v bc) :=
  flagsKept_mkF (by simp)

theorem bitFlags_kept (f v : Byte) (bit : BitVec 3) (yx : Byte) : FlagsKept 0xFE f (bitFlags f v bit yx) :=
  flagsKept_mkF (by simp)

theorem flagsKept_carry {f f' : Byte} (h : f'.getLsbD 0 = f.getLsbD 0) : FlagsKept 0xFE f f' := by
  intro k hk hm
  obtain rfl : k = 0 := by
    interval_cases k <;> simp at hm ⊢
  exact h

theorem sz53_low (v : Byte) {k : Nat} (hk : k < 3) : (sz53 v).getLsbD k = false := by
  unfold sz53
  interval_cases k <;> split <;> simp

theorem sz53p_low (v : Byte) {k : Nat} (hk : k < 2) : (sz53p v).getLsbD k = false := by
  unfold sz53p
  rw [BitVec.getLsbD_or, sz53_low v (by omega)]
  interval_cases k <;> split <;> simp

theorem inc8_kept (v f : Byte) : FlagsKept 0xFE f (inc8 v f).2 := by
  apply flagsKept_carry
  simp only [inc8, BitVec.getLsbD_or, sz53_low _ (Nat.zero_lt_succ 2)]
  split_ifs <;> simp

theorem dec8_kept (v f : Byte) : FlagsKept 0xFE f (dec8 v f).2 := by
  apply flagsKept_carry
  simp only [dec8, BitVec.getLsbD_or, sz53_low _ (Nat.zero_lt_succ 2)]
  split_ifs <;> simp

theorem ldAirFlags_kept (f a : Byte) (iff2 : Bool) : FlagsKept 0xFE f (ldAirFlags f a iff2) := by
  apply flagsKept_carry
  simp only [ldAirFlags, BitVec.getLsbD_or, sz53_low _ (Nat.zero_lt_succ 2)]
  split_ifs <;> simp

theorem keepCFlags_kept (f v : Byte) : FlagsKept 0xFE f (keepCFlags f v) := by
  apply flagsKept_carry
  simp only [keepCFlags, BitVec.getLsbD_or, sz53p_low _ Nat.zero_lt_two]
  simp

theorem daa8_kept (a f : Byte) : FlagsKept 0xFD f (daa8 a f).2 := by
  intro k hk hm
  obtain rfl : k = 1 := by
    interval_cases k <;> simp at hm ⊢
  have bit1 : ∀ (c : Bool) (x : Byte), (if c then x else 0).getLsbD 1 = (c && x.getLsbD 1) := by
    intro c x
    cases c <;> simp
  simp only [daa8, BitVec.getLsbD_or, sz53p_low _ Nat.one_lt_two, bit1]
  simp [flagN]

/-! F is told apart from the registers that codes name. -/

theorem f_ne_ofR8 (r : R8) : Reg.f ≠ Reg.ofR8 r := by cases r <;> decide

theorem f_ne_ofXy (xy : XY) : Reg.f ≠ Reg.ofXy xy := by cases xy <;> decide

theorem f_ne_ofP8 (xy : XY) (p : P8) : Reg.f ≠ Reg.ofP8 xy p := by cases xy <;> cases p <;> decide

theorem f_notMem_ofDd (p : DD) : Reg.f ∉ Reg.ofDd p := by cases p <;> decide

/-- An instruction that may write only some bits of F keeps the others: nothing is said where the mask is full, F is
kept where it is no destination, and the other instructions write it with a flag function that keeps the bits. -/
theorem exec_flags (i : Instr) (s : State) : Answers (fun t => FlagsKept (flagMaskOf i) s.f t.f) (exec i s) := by
  by_cases hall : flagMaskOf i = 0xFF
  · rw [hall]
    exact (exec_frame i s).mono fun t _ => .all s.f t.f
  by_cases hf : Reg.f ∉ destsOf i
  · refine (exec_frame i s).mono fun t ht => .of_eq (BitVec.eq_of_toNat_eq ?_)
    exact (ht.regs .f hf).trans (frameBase_value i s .f)
  cases i with
  | rlca | rla | rrca | rra => exact accRotFlags_kept _ _ _
  | scf => exact scfFlags_kept _ _
  | ccf => exact ccfFlags_kept _ _
  | addHlSs ss => exact add16_kept _ _ _
  | addXyPp xy pp => cases xy <;> exact add16_kept _ _ _
  | cpl => exact cplFlags_kept _ _
  | daa => exact daa8_kept _ _
  | incR r => cases r <;> exact inc8_kept _ _
  | decR r => cases r <;> exact dec8_kept _ _
  | incMemHl | incMemXy xy d => exact inc8_kept _ _
  | decMemHl | decMemXy xy d => exact dec8_kept _ _
  | incXyHalf xy j => cases xy <;> cases j <;> exact inc8_kept _ _
  | decXyHalf xy j => cases xy <;> cases j <;> exact dec8_kept _ _
  | bitR bit r | bitMemHl bit | bitMemXy xy bit d z => exact bitFlags_kept _ _ _ _
  | inRC r => cases r <;> exact keepCFlags_kept _ _
  | inC | rld | rrd => exact keepCFlags_kept _ _
  | ldAI | ldAR =>
    rw [← show (fetchIr s).f = s.f by rw [fetchIr_ran, ran_f]]
    exact ldAirFlags_kept _ _ _
  | cpi | cpd => exact cpBlockFlags_kept _ _ _ _
  | cpir | cpdr => exact .ite (cpBlockFlags_kept _ _ _ _) (cpBlockFlags_kept _ _ _ _)
  | ldi | ldd => exact ldBlockFlags_kept _ _ _ _
  | ldir | lddr => exact .ite (ldBlockFlags_kept _ _ _ _) (ldBlockFlags_kept _ _ _ _)
  | popQq qq => cases qq <;> simp [flagMaskOf, destsOf, Reg.ofQq] at hall hf
  -- Every other instruction has the full mask or does not list F among its destinations.
  | _ => simp [flagMaskOf, destsOf, f_ne_ofR8, f_ne_ofXy, f_ne_ofP8, f_notMem_ofDd] at hall hf

/-- Settles O52, by what each flag function keeps. -/
theorem flagFrame : Obligations.FlagFrame := fun i s _ h => (exec_flags i s).of_next h

end Sys2Proof.Machine
end

section
/-! PROOFS. Memory (20_memory): the byte an address names, what a store does to each byte, and the stack. Every access
is read through `placeOf` and `byteAt`, so that two addresses of one byte (R83) need no case of their own. -/

namespace Sys2Proof.Machine

/-! ### Addresses -/

theorem slotOf_eq (a : Word) : slotOf a = a.toNat / 0x4000 := by
  have := a.isLt
  simp only [slotOf, BitVec.extractLsb'_toNat, Nat.shiftRight_eq_div_pow]
  omega

theorem offsetOf_eq (a : Word) : offsetOf a = a.toNat % 0x4000 := by
  simp [offsetOf]

theorem romSel_eq (g : BitVec 6) : romSel g = (g.getLsbD 4).toNat := by
  revert g
  decide

theorem ramSel_eq (g : BitVec 6) : ramSel g = g.toNat % 8 := by
  simp [ramSel]

theorem pageMap_m48 (g : BitVec 6) (k : Nat) (hk : k < 4) :
    pageMap .m48 g k = if k = 0 then .rom 0 else .ram (k - 1) := by
  interval_cases k <;> rfl

theorem pageMap_m128 (g : BitVec 6) (k : Nat) (hk : k < 4) :
    pageMap .m128 g k =
      if k = 0 then .rom (g.getLsbD 4).toNat else if k = 1 then .ram 5 else if k = 2 then .ram 2
      else .ram (g.toNat % 8) := by
  rw [← romSel_eq, ← ramSel_eq]
  interval_cases k <;> rfl

theorem pageAt_m48 {s : State} (h : s.cfg.model = .m48) (a : Word) :
    pageAt s a = if a.toNat < 0x4000 then .rom 0 else .ram (a.toNat / 0x4000 - 1) := by
  rw [pageAt, h, pageMap_m48 _ _ (slotOf_lt a), slotOf_eq]
  exact if_congr (by omega) rfl rfl

theorem pageAt_m128 {s : State} (h : s.cfg.model = .m128) (a : Word) :
    pageAt s a =
      if a.toNat < 0x4000 then .rom (s.paging.getLsbD 4).toNat
      else if a.toNat < 0x8000 then .ram 5
      else if a.toNat < 0xC000 then .ram 2
      else .ram (s.paging.toNat % 8) := by
  rw [pageAt, h, pageMap_m128 _ _ (slotOf_lt a), slotOf_eq]
  split_ifs <;> first | rfl | omega

/-! ### Reads and stores, byte by byte -/

theorem read8_eq_byteAt (s : State) (a : Word) : read8 s a = byteAt s (placeOf s a) := by
  unfold read8 placeOf byteAt
  cases pageAt s a <;> rfl

theorem placeOf_lt (s : State) (a : Word) : (placeOf s a).2 < pageSize := offsetOf_lt a

@[simp] theorem placeOf_write8 (a b : Word) (v : Byte) (s : State) : placeOf (write8 a v s) b = placeOf s b := by
  simp [placeOf, pageAt]

/-- A ROM page drops the byte (20_memory R85). -/
theorem write8_of_rom {s : State} {a : Word} {n : Nat} (h : pageAt s a = .rom n) (v : Byte) : write8 a v s = s := by
  rw [write8, h]

/-- A store leaves every byte but the one its address names. -/
theorem byteAt_write8_other {s : State} {a : Word} {p : Page × Nat} (hp : p.2 < pageSize) (h : placeOf s a ≠ p)
    (v : Byte) : byteAt (write8 a v s) p = byteAt s p := by
  obtain ⟨q, off⟩ := p
  cases ha : pageAt s a with
  | rom n => rw [write8_of_rom ha]
  | ram n =>
    simp only [write8, ha]
    cases q with
    | rom m => rfl
    | ram m =>
      refine Memory.read_write_other v fun hk => h ?_
      obtain ⟨rfl, rfl⟩ := (cellKey_inj hp (offsetOf_lt a)).1 hk
      rw [placeOf, ha]

/-- A store to RAM sets the byte its address names. -/
theorem byteAt_write8_same {s : State} (hs : s.ram.wf = true) {a : Word} {n : Nat} (h : pageAt s a = .ram n)
    (v : Byte) : byteAt (write8 a v s) (placeOf s a) = v := by
  simp only [write8, placeOf, h, byteAt, Memory.read_write hs, if_true]

theorem read8_write8_other {s : State} {a b : Word} (h : placeOf s b ≠ placeOf s a) (v : Byte) :
    read8 (write8 a v s) b = read8 s b := by
  rw [read8_eq_byteAt, read8_eq_byteAt, placeOf_write8, byteAt_write8_other (placeOf_lt s b) h.symm]

theorem read8_write8_same {s : State} (hs : s.ram.wf = true) {a b : Word} {n : Nat} (ha : pageAt s a = .ram n)
    (h : placeOf s b = placeOf s a) (v : Byte) : read8 (write8 a v s) b = v := by
  rw [read8_eq_byteAt, placeOf_write8, h, byteAt_write8_same hs ha]

/-- Settles O7, by the page map of each model. -/
theorem memoryMap : Obligations.MemoryMap := by
  refine fun s a => ⟨fun h => ?_, fun h => ?_⟩
  · unfold read8
    rw [pageAt_m48 h, offsetOf_eq]
    split_ifs
    · exact congrArg s.rom.read (by simp only [cellKey, pageSize]; omega)
    · exact congrArg s.ram.read (by simp only [cellKey, pageSize]; omega)
  · have := a.isLt
    unfold read8
    rw [pageAt_m128 h, offsetOf_eq]
    split_ifs
    · exact congrArg s.rom.read (by simp only [cellKey, pageSize]; omega)
    all_goals exact congrArg s.ram.read (by simp only [cellKey, pageSize]; omega)

/-- Settles O8, by what a store does to the byte its address names and to every other. -/
theorem byteStore : Obligations.ByteStore := by
  refine fun s a v hs => ⟨fun n b ha => ?_, fun n ha => write8_of_rom ha v, write8_eq a v s⟩
  split
  · exact read8_write8_same hs.ram_wf ha ‹_› v
  · exact read8_write8_other ‹_› v

/-! ### The stack -/

/-- Reads see the configuration, the paging latch and the two banks only. -/
theorem read16_congr {s t : State} (h : t.keptPart = s.keptPart) (a : Word) : read16 t a = read16 s a := by
  simp only [State.keptPart, Prod.mk.injEq] at h
  obtain ⟨hcfg, hrom, -, -, -, hram, hpaging⟩ := h
  simp only [read16, read8, pageAt, hcfg, hrom, hram, hpaging]

/-- Neighbouring addresses name different bytes on every page map: their offsets differ. -/
theorem placeOf_sub_one_ne_sub_two (s : State) (a : Word) : placeOf s (a - 1) ≠ placeOf s (a - 2) := by
  intro h
  have ho : (a - 1).toNat % 0x4000 = (a - 2).toNat % 0x4000 := by
    rw [← offsetOf_eq, ← offsetOf_eq]
    exact congrArg Prod.snd h
  have h1 : (a - 1 : Word).toNat = (65536 - 1 + a.toNat) % 65536 := rfl
  have h2 : (a - 2 : Word).toNat = (65536 - 2 + a.toNat) % 65536 := rfl
  omega

/-- A word pushed into two RAM bytes lies little-endian at the new SP (20_memory R75). -/
theorem read16_pushed16 {s : State} (hs : s.Inv) {m n : Nat} (hm : pageAt s (s.sp - 1) = .ram m)
    (hn : pageAt s (s.sp - 2) = .ram n) (v : Word) : read16 (pushed16 v s) (s.sp - 2) = v := by
  have hp : s.sp - 2 + 1 = s.sp - 1 := by bv_omega
  have hwf := write8_ram_wf hs.ram_wf (s.sp - 1) (hiByte v)
  have hn' : pageAt (write8 (s.sp - 1) (hiByte v) s) (s.sp - 2) = .ram n := by
    rw [← hn]
    simp [pageAt]
  have hi : read8 (write8 (s.sp - 2) (loByte v) (write8 (s.sp - 1) (hiByte v) s)) (s.sp - 1) = hiByte v := by
    rw [read8_write8_other (by simpa using placeOf_sub_one_ne_sub_two s s.sp), read8_write8_same hs.ram_wf hm rfl]
  have lo : read8 (write8 (s.sp - 2) (loByte v) (write8 (s.sp - 1) (hiByte v) s)) (s.sp - 2) = loByte v :=
    read8_write8_same hwf hn' rfl _
  change read8 _ (s.sp - 2 + 1) ++ read8 _ (s.sp - 2) = v
  rw [hp]
  exact (congrArg₂ (· ++ ·) hi lo).trans (append_bytes v)

theorem push16_ran (v : Word) (s : State) : push16 v s = ran (pushed16 v s) 0 0 (cycPush s) := by
  have h := push16_after s 0 0 [] v
  rwa [ran_nil] at h

theorem pop16_ran (s : State) : pop16 s = { ran s 0 0 (cycPop s) with sp := s.sp + 2 } := by
  have h := pop16_after s 0 0 []
  rwa [ran_nil] at h

/-- Settles O9: the two primitives as runs of their cycles, and the word pushed read back. -/
theorem stack : Obligations.Stack := by
  refine fun s v => ⟨push16_ran v s, pop16_ran s, rfl, ?_, fun hs m n hm hn => ?_⟩
  · rw [push16_ran, pop16_ran]
    simp
  · rw [push16_ran, ran_sp, pushed16_sp]
    exact (read16_congr rfl _).trans (read16_pushed16 hs hm hn v)

/-! ### Returns to a pushed address -/

/-- `t` is a state right after `v` was pushed in `s`: what reads see of it, and SP. -/
structure AfterPush (v : Word) (s t : State) : Prop where
  kept : t.keptPart = (pushed16 v s).keptPart
  sp : t.sp = s.sp - 2

/-- A push after fetches and time, and the jump that follows it. -/
theorem afterPush_jumpTo (s : State) (l k : Nat) (cs : List Cycle) (v target : Word) :
    AfterPush v s (jumpTo target (push16 v (ran s l k cs))) := by
  rw [push16_after]
  exact ⟨rfl, pushed16_sp v s⟩

theorem execCallNn_afterPush {s t : State} {nn : Word} (h : exec (.callNn nn) s = .next t) :
    AfterPush (s.pc + 3) s t := by
  obtain rfl : callTo nn (fetch16 (fetchOp s)) = t := Host.Outcome.next.inj h
  rw [fetchNn_ran, callTo, internal_ran, ran_more]
  exact afterPush_jumpTo s 3 1 _ _ nn

theorem execRst_afterPush {s t : State} {k : BitVec 3} (h : exec (.rst k) s = .next t) :
    AfterPush (s.pc + 1) s t := by
  obtain rfl : jumpTo (restartAddr k) (push16 (fetchOp s).pc (internal (fetchOp s).ir 1 (fetchOp s))) = t :=
    Host.Outcome.next.inj h
  rw [internal_ran, fetchOp_ran, ran_more]
  exact afterPush_jumpTo s 1 1 _ _ _

theorem nmiResponse_afterPush (s : State) : AfterPush s.pc { s with nmiPending := false } (nmiResponse s) := by
  rw [nmiResponse, enterTrap_ran]
  exact ⟨rfl, pushed16_sp s.pc { s with nmiPending := false }⟩

/-- A pop of PC right after a push into two RAM bytes: the value pushed, and the old SP. -/
theorem AfterPush.returned {v : Word} {s t u : State} (h : AfterPush v s t) (hs : s.Inv) {m n : Nat}
    (hm : pageAt s (s.sp - 1) = .ram m) (hn : pageAt s (s.sp - 2) = .ram n)
    (hu : u.pc = read16 t t.sp ∧ u.sp = t.sp + 2) : u.pc = v ∧ u.sp = s.sp := by
  obtain ⟨hpc, hsp⟩ := hu
  rw [hpc, hsp, read16_congr h.kept, h.sp]
  exact ⟨read16_pushed16 hs hm hn v, BitVec.sub_add_cancel s.sp 2⟩

theorem execRet_pops {s t : State} (h : exec .ret s = .next t) : t.pc = read16 s s.sp ∧ t.sp = s.sp + 2 := by
  obtain rfl : popPc (fetchOp s) = t := Host.Outcome.next.inj h
  exact ⟨rfl, rfl⟩

theorem execRetn_pops {s t : State} {k : BitVec 3} (h : exec (.retn k) s = .next t) :
    t.pc = read16 s s.sp ∧ t.sp = s.sp + 2 := by
  obtain rfl : returnFromTrap (fetchOp2 s) = t := Host.Outcome.next.inj h
  rw [fetchOp2_ran]
  exact ⟨rfl, rfl⟩

/-- Settles O56: CALL, RST and the NMI leave the return address where the return pops it. -/
theorem callReturns : Obligations.CallReturns := by
  intro s m n hs hm hn
  refine ⟨fun nn t u ht hu => (execCallNn_afterPush ht).returned hs hm hn (execRet_pops hu),
    fun k t u ht hu => (execRst_afterPush ht).returned hs hm hn (execRet_pops hu), fun k u hu => ?_⟩
  have kept : Keeps s { s with nmiPending := false } := .of_same rfl
  obtain ⟨hpc, hsp⟩ := (nmiResponse_afterPush s).returned (kept.inv hs) hm hn (execRetn_pops hu)
  have hiff : u.iff1 = (nmiResponse s).iff2 := (interruptFrame _ _ _ hu).1
  refine ⟨hpc, hsp, hiff.trans ?_⟩
  simp [nmiResponse, enterTrap_ran, jumpTo]

end Sys2Proof.Machine
end

section
/-! PROOFS. Contention (70_reset R613 to R617, 20_memory R89). -/

namespace Sys2Proof.Machine

/-- The pattern is the list of 00_scope R5, read at one of its eight positions. -/
theorem contPattern_eq {k : Nat} (hk : k < 8) : contPattern k = [6, 5, 4, 3, 2, 1, 0, 0].getD k 0 := by
  interval_cases k <;> rfl

/-- `Delay(t)` with the 192 lines as one interval of time. -/
theorem delay_eq (cfg : Config) (t : Nat) :
    delay cfg t =
      if t < contFirst cfg ∨ contFirst cfg + 192 * lineTstates cfg.model ≤ t ∨
          128 ≤ (t - contFirst cfg) % lineTstates cfg.model then 0
      else [6, 5, 4, 3, 2, 1, 0, 0].getD ((t - contFirst cfg) % lineTstates cfg.model % 8) 0 := by
  have hpos : 0 < lineTstates cfg.model := by cases cfg.model <;> decide
  have hline : t < contFirst cfg ∨ (192 ≤ (t - contFirst cfg) / lineTstates cfg.model ↔
      contFirst cfg + 192 * lineTstates cfg.model ≤ t) := by
    rw [Nat.le_div_iff_mul_le hpos]
    omega
  unfold delay
  by_cases ht : t < contFirst cfg
  · simp [ht]
  · simp only [ge_iff_le, hline.resolve_left ht, ht, if_false, false_or, contPattern_eq (Nat.mod_lt _ (by decide))]

@[simp] theorem contendedPage_rom (m : Model) (n : Nat) : contendedPage m (.rom n) = false := by
  cases m <;> rfl

theorem contended_m48 {s : State} (h : s.cfg.model = .m48) (a : Word) :
    contended s a = decide (0x4000 ≤ a.toNat ∧ a.toNat < 0x8000) := by
  rw [contended, pageAt_m48 h, h, Bool.eq_iff_iff]
  split_ifs <;> simp [contendedPage] <;> omega

theorem contended_m128 {s : State} (h : s.cfg.model = .m128) (a : Word) :
    contended s a =
      decide ((0x4000 ≤ a.toNat ∧ a.toNat < 0x8000) ∨ (0xC000 ≤ a.toNat ∧ s.paging.toNat % 2 = 1)) := by
  rw [contended, pageAt_m128 h, h, Bool.eq_iff_iff]
  split_ifs <;> simp [contendedPage] <;> omega

/-- The four rows of the table of R617 by the two conditions on the port address. -/
theorem ioEnd_eq (s : State) (p : Word) :
    ioEnd s.cfg s.paging p s.frameT =
      if contended s p = false ∧ p.getLsbD 0 = true then s.frameT + 4
      else if contended s p = false then partEnd s.cfg 3 (s.frameT + 1)
      else if p.getLsbD 0 = false then partEnd s.cfg 3 (partEnd s.cfg 1 s.frameT)
      else partEnd s.cfg 1 (partEnd s.cfg 1 (partEnd s.cfg 1 (partEnd s.cfg 1 s.frameT))) := by
  unfold ioEnd
  rw [show contendedPage s.cfg.model (pageMap s.cfg.model s.paging (slotOf p)) = contended s p from rfl]
  cases contended s p <;> cases p.getLsbD 0 <;> simp

/-- Settles O36: the delay of every position, the pages of both models that wait, and the rows of the table of R617. -/
theorem contention : Obligations.Contention := by
  refine ⟨delay_eq, fun s a => ⟨fun h => contended_m48 h a, fun h => contended_m128 h a⟩,
    fun s a n k => ⟨rfl, rfl, rfl⟩, fun s p => ?_⟩
  rw [ioCycle_ran, ran_of_frameT]
  exact congrArg (fun t => { s with frameT := t }) (ioEnd_eq s p)

end Sys2Proof.Machine
end

section
/-! PROOFS. What an instruction does to memory and to the paging latch (20_memory R77, R83): `MemFrame A out s t` says
that `t` has the bytes of `s` but where an address of `A` names them, and the page map of `s` unless a port write
changed it. Each named operation keeps it, so the memory frame of an instruction is read off its meaning, as in
`exec_frame`. -/

namespace Sys2Proof.Machine

/-! ### Fetches and time leave SP, where a push begins -/

@[simp] theorem internal_sp (a : Word) (k : Nat) (s : State) : (internal a k s).sp = s.sp := by
  rw [internal_ran, ran_sp]

@[simp] theorem fetchOp_sp (s : State) : (fetchOp s).sp = s.sp := rfl

@[simp] theorem fetchOp2_sp (s : State) : (fetchOp2 s).sp = s.sp := by
  rw [fetchOp2_ran, ran_sp]

@[simp] theorem fetch16_sp (s : State) : (fetch16 s).sp = s.sp := by
  rw [fetch16_ran, ran_sp]

/-! ### The relation -/

/-- No port write can change the latch: its lock bit is set, or the model has none (20_memory R83). -/
def PagingFixed (s : State) : Prop := s.paging.getLsbD 5 = true ∨ s.cfg.model = .m48

theorem portWrite_paging_locked {s : State} (h : s.paging.getLsbD 5 = true) (p : Word) (v : Byte) :
    (portWrite p v s).paging = s.paging := by
  have hula : (if p.getLsbD 0 = false then ulaWrite v (logWrite p v s) else logWrite p v s).paging = s.paging := by
    split <;> rfl
  have hpaging : ∀ x : State, x.paging = s.paging →
      (if reachesPaging s.cfg.model p then pagingWrite v x else x).paging = s.paging := by
    intro x hx
    rw [pagingWrite, pagingLock, hx, if_pos h, ite_self]
    exact hx
  have hay : ∀ x : State, x.paging = s.paging →
      (if reachesAy s.cfg.model p then ayWrite p v x else x).paging = s.paging := by
    intro x hx
    unfold ayWrite
    split_ifs <;> exact hx
  exact hay _ (hpaging _ hula)

theorem PagingFixed.portWrite {s : State} (h : PagingFixed s) (p : Word) (v : Byte) :
    (portWrite p v s).paging = s.paging :=
  h.elim (portWrite_paging_locked · p v) (portWrite_paging_m48 · p v)

/-- `t` has the bytes of `s` but for those that an address of `A` names in `s`, and its page map; only where `out` is
true may the latch differ, and not then if it is fixed. -/
structure MemFrame (A : List Word) (out : Bool) (s t : State) : Prop where
  cfg : t.cfg = s.cfg
  paging : out = false ∨ PagingFixed s → t.paging = s.paging
  bytes : ∀ p : Page × Nat, p.2 < pageSize → (∀ w ∈ A, placeOf s w ≠ p) → byteAt t p = byteAt s p

namespace MemFrame

variable {A : List Word} {out : Bool} {s t u : State} {a nn w : Word} {v : Byte}

/-- What reads see is as it was. -/
theorem same (h : MemFrame A out s t) (hu : u.keptPart = t.keptPart := by rfl) : MemFrame A out s u := by
  simp only [State.keptPart, Prod.mk.injEq] at hu
  obtain ⟨hcfg, hrom, -, -, -, hram, hpaging⟩ := hu
  refine ⟨hcfg.trans h.cfg, fun ho => hpaging.trans (h.paging ho), fun p hp hw => ?_⟩
  rw [← h.bytes p hp hw]
  obtain ⟨q | q, off⟩ := p
  · rw [byteAt, byteAt, hrom]
  · rw [byteAt, byteAt, hram]

theorem refl (s : State) : MemFrame A out s s := ⟨rfl, fun _ => rfl, fun _ _ _ => rfl⟩

theorem ran (h : MemFrame A out s t) (l m : Nat) (cs : List Cycle) : MemFrame A out s (ran t l m cs) := h.same

/-- A change of the main registers, PC, SP and MEMPTR; the fields are written out, so that `t` is read off the term. -/
theorem regs (ht : MemFrame A out s t) {a f b c d e h l : Byte} {sp pc memptr : Word} :
    MemFrame A out s
      { t with a := a, f := f, b := b, c := c, d := d, e := e, h := h, l := l, sp := sp, pc := pc, memptr := memptr } :=
  ht.same

theorem ite {c : Prop} [Decidable c] (h : MemFrame A out s t) (h' : MemFrame A out s u) :
    MemFrame A out s (if c then t else u) := by
  split
  · exact h
  · exact h'

theorem placeOf_eq (h : MemFrame A false s t) (a : Word) : placeOf t a = placeOf s a := by
  simp only [placeOf, pageAt, h.cfg, h.paging (.inl rfl)]

/-! ### Fetches and time -/

theorem cycle (h : MemFrame A out s t) {n : Nat} : MemFrame A out s (cycle a n t) := h.same

theorem cycle16 (h : MemFrame A out s t) : MemFrame A out s (cycle16 a t) := h.cycle.cycle

theorem internal (h : MemFrame A out s t) {k : Nat} : MemFrame A out s (internal a k t) := by
  rw [internal_ran]
  exact h.ran 0 0 _

theorem ioCycle (h : MemFrame A out s t) {p : Word} : MemFrame A out s (ioCycle p t) := by
  rw [ioCycle_ran]
  exact h.ran 0 0 _

theorem fetchOp (s : State) : MemFrame A out s (fetchOp s) := (refl s).same

theorem fetchOp2 (s : State) : MemFrame A out s (fetchOp2 s) := by
  rw [fetchOp2_ran]
  exact (refl s).ran 2 2 _

theorem fetch8 (h : MemFrame A out s t) : MemFrame A out s (fetch8 t) := h.same

theorem fetch16 (h : MemFrame A out s t) : MemFrame A out s (fetch16 t) := h.fetch8.fetch8

theorem indexed (s : State) {xy : XY} {d : Byte} : MemFrame A out s (indexed xy d s) :=
  (fetchOp2 s).fetch8.internal.same

theorem indexed4 (s : State) {xy : XY} {d : Byte} : MemFrame A out s (indexed4 xy d s) :=
  (fetchOp2 s).fetch16.internal.same

theorem fetchIr (s : State) : MemFrame A out s (fetchIr s) := (fetchOp2 s).internal

/-! ### Stores -/

theorem write8 (h : MemFrame A false s t) (ha : a ∈ A := by simp) : MemFrame A false s (write8 a v t) where
  cfg := (write8_cfg a v t).trans h.cfg
  paging ho := (write8_paging a v t).trans (h.paging ho)
  bytes p hp hw := by
    have hne : placeOf t a ≠ p := by
      rw [h.placeOf_eq]
      exact hw a ha
    rw [byteAt_write8_other hp hne, h.bytes p hp hw]

theorem store8 (h : MemFrame A false s t) (ha : a ∈ A := by simp) : MemFrame A false s (store8 a v t) :=
  h.cycle.write8 ha

theorem store16 (h : MemFrame A false s t) (h1 : a ∈ A := by simp) (h2 : a + 1 ∈ A := by simp) :
    MemFrame A false s (store16 a w t) := (h.store8 h1).store8 h2

theorem modify (h : MemFrame A false s t) (ha : a ∈ A := by simp) : MemFrame A false s (modify a v t) :=
  h.cycle.cycle.store8 ha

theorem push16 (h : MemFrame A false s t) (h1 : t.sp - 1 ∈ A := by simp) (h2 : t.sp - 2 ∈ A := by simp) :
    MemFrame A false s (push16 w t) := by
  rw [push16_eq]
  exact ((h.store8 h1).store8 h2).same

/-! ### Ports -/

theorem portWrite (h : MemFrame A true s t) {p : Word} : MemFrame A true s (portWrite p v t) where
  cfg := by
    rw [portWrite_eq]
    exact h.cfg
  paging ho := by
    have hs : PagingFixed s := ho.resolve_left (by decide)
    have ht : PagingFixed t := by
      rw [PagingFixed, h.cfg, h.paging ho]
      exact hs
    exact (ht.portWrite p v).trans (h.paging ho)
  bytes q hq hw := by
    rw [← h.bytes q hq hw, portWrite_eq]
    rfl

theorem outCycle (h : MemFrame A true s t) {p : Word} : MemFrame A true s (outCycle p v t) :=
  (h.portWrite (p := p) (v := v)).same

/-! ### Registers -/

theorem setR8 (h : MemFrame A out s t) {r : R8} : MemFrame A out s (setR8 r v t) := by
  cases r <;> exact h.same

theorem setSp (h : MemFrame A out s t) : MemFrame A out s (setSp w t) := h.same

theorem setBc (h : MemFrame A out s t) : MemFrame A out s (setBc w t) := h.same

theorem setDe (h : MemFrame A out s t) : MemFrame A out s (setDe w t) := h.same

theorem setHl (h : MemFrame A out s t) : MemFrame A out s (setHl w t) := h.same

theorem jumpTo (h : MemFrame A out s t) : MemFrame A out s (jumpTo w t) := h.same

theorem pop16 (h : MemFrame A out s t) : MemFrame A out s (pop16 t) := h.cycle16.setSp

theorem popPc (h : MemFrame A out s t) : MemFrame A out s (popPc t) := h.pop16.jumpTo

theorem setDd (h : MemFrame A out s t) {p : DD} : MemFrame A out s (setDd p w t) := by
  cases p <;> exact h.same

theorem setQq (h : MemFrame A out s t) {p : QQ} : MemFrame A out s (setQq p w t) := by
  cases p <;> exact h.same

theorem setXy (h : MemFrame A out s t) {xy : XY} : MemFrame A out s (setXy xy w t) := by
  cases xy <;> exact h.same

theorem setHalf (h : MemFrame A out s t) {xy : XY} {j : Half} : MemFrame A out s (setHalf xy j v t) := by
  cases j <;> exact h.setXy

theorem setP8 (h : MemFrame A out s t) {xy : XY} {p : P8} : MemFrame A out s (setP8 xy p v t) := by
  cases p with
  | xyh => exact h.setHalf (j := .hi)
  | xyl => exact h.setHalf (j := .lo)
  | _ => exact h.same

/-! ### The shared meanings -/

theorem exchangeTop (h : MemFrame A false s t) (h1 : t.sp ∈ A := by simp) (h2 : t.sp + 1 ∈ A := by simp) :
    MemFrame A false s (exchangeTop w t) := ((h.cycle16.cycle.store8 h2).store8 h1).internal.regs

theorem transfer (s : State) {delta : Word} : MemFrame [s.de] false s (transfer delta s) :=
  (fetchOp2 s).cycle.store8.internal.regs.setHl.setDe.setBc

theorem search (s : State) {delta : Word} : MemFrame A out s (search delta s) :=
  (fetchOp2 s).cycle.internal.regs.setHl.setBc

theorem repeatPc (h : MemFrame A out s t) : MemFrame A out s (repeatPc t) := h.same

theorem repeatBlock (h : MemFrame A out s t) : MemFrame A out s (repeatBlock a t) := h.internal.repeatPc.regs

theorem loadWord (h : MemFrame A out s t) : MemFrame A out s (loadWord nn t) := h.cycle16.regs

theorem storeWord (h : MemFrame [nn, nn + 1] false s t) :
    Answers (MemFrame [nn, nn + 1] false s) (storeWord nn w t) := h.store16.regs

theorem jumpRel (h : MemFrame A out s t) {e : Byte} : MemFrame A out s (jumpRel e t) := h.internal.jumpTo

theorem blockIn (s : State) {delta : Word} : MemFrame [s.hl] false s (blockIn delta s) :=
  (fetchIr s).ioCycle.store8.regs.setHl

theorem blockOut (s : State) {delta : Word} : MemFrame A true s (blockOut delta s) :=
  (fetchIr s).cycle.outCycle.regs.setHl

theorem callTo (h : MemFrame A false s t) (h1 : t.sp - 1 ∈ A := by simp) (h2 : t.sp - 2 ∈ A := by simp) :
    MemFrame A false s (callTo nn t) :=
  (h.internal.push16 (by simpa using h1) (by simpa using h2)).jumpTo

end MemFrame

end Sys2Proof.Machine
end

section
/-! PROOFS. The memory frame of every instruction: one arm per instruction, in the order of the rules. -/

namespace Sys2Proof.Machine

/-- The memory frame of an instruction: it stores at the addresses of `storeAddrs` and
nowhere else, and only an output changes the page map. -/
theorem exec_memFrame (i : Instr) (s : State) :
    Answers (MemFrame (storeAddrs s i) (writesPort i) s) (exec i s) := by
  have one : ∀ {A out}, MemFrame A out s (fetchOp s) := MemFrame.fetchOp s
  have two : ∀ {A out}, MemFrame A out s (fetchOp2 s) := MemFrame.fetchOp2 s
  have xy3 : ∀ {A out xy d}, MemFrame A out s (indexed xy d s) := MemFrame.indexed s
  have xy4 : ∀ {A out xy d}, MemFrame A out s (indexed4 xy d s) := MemFrame.indexed4 s
  have ir : ∀ {A out}, MemFrame A out s (fetchIr s) := MemFrame.fetchIr s
  cases i with dsimp only [storeAddrs]
  -- 40_load8
  | ldRR r r' => exact one.setR8
  | ldRN r n => exact one.fetch8.setR8
  | ldRMemHl r => exact one.cycle.setR8
  | ldMemHlR r => exact one.store8
  | ldMemHlN n => exact one.fetch8.store8
  | ldRMemXy xy r d => exact xy3.cycle.setR8
  | ldMemXyR xy r d => exact xy3.store8
  | ldMemXyN xy d n => exact xy4.store8
  | ldAMemBc | ldAMemDe => exact one.cycle.regs
  | ldAMemNn nn => exact one.fetch16.cycle.regs
  | ldMemBcA | ldMemDeA => exact one.store8.regs
  | ldMemNnA nn => exact one.fetch16.store8.regs
  | ldAI | ldAR | ldIA | ldRA => exact ir.same
  | ldPP xy p p' => exact two.setP8
  | ldXyHalfN xy j n => exact two.fetch8.setHalf
  -- 41_load16
  | ldDdNn dd nn => exact one.fetch16.setDd
  | ldXyNn xy nn => exact two.fetch16.setXy
  | ldHlMemNn nn => exact one.fetch16.loadWord.setHl
  | ldDdMemNn dd nn => exact two.fetch16.loadWord.setDd
  | ldXyMemNn xy nn => exact two.fetch16.loadWord.setXy
  | ldMemNnHl nn => exact one.fetch16.storeWord
  | ldMemNnDd dd nn => exact two.fetch16.storeWord
  | ldMemNnXy xy nn => exact two.fetch16.storeWord
  | ldSpHl => exact one.internal.regs
  | ldSpXy xy => exact two.internal.regs
  | pushQq qq => exact one.internal.push16
  | pushXy xy => exact two.internal.push16
  | popQq qq => exact one.pop16.setQq
  | popXy xy => exact two.pop16.setXy
  -- 42_exchange_block
  | exDeHl | exAfAf | exx => exact one.same
  | exSpHl => exact one.exchangeTop.setHl
  | exSpXy xy => exact two.exchangeTop.setXy
  | ldi | ldd => exact MemFrame.transfer s
  | ldir | lddr => exact (MemFrame.transfer s).repeatBlock.ite (.transfer s)
  | cpi | cpd => exact MemFrame.search s
  | cpir | cpdr => exact (MemFrame.search s).repeatBlock.ite (.search s)
  -- 43_arith8
  | addR r | adcR r | subR r | sbcR r | andR r | xorR r | orR r | cpR r => exact one.same
  | addN n | adcN n | subN n | sbcN n | andN n | xorN n | orN n | cpN n => exact one.fetch8.regs
  | addMemHl | adcMemHl | subMemHl | sbcMemHl | andMemHl | xorMemHl | orMemHl | cpMemHl => exact one.cycle.regs
  | addMemXy xy d | adcMemXy xy d | subMemXy xy d | sbcMemXy xy d | andMemXy xy d | xorMemXy xy d | orMemXy xy d
  | cpMemXy xy d => exact xy3.cycle.regs
  | addXyHalf xy j | adcXyHalf xy j | subXyHalf xy j | sbcXyHalf xy j | andXyHalf xy j | xorXyHalf xy j
  | orXyHalf xy j | cpXyHalf xy j => exact two.same
  | incR r | decR r => exact one.regs.setR8
  | incMemHl | decMemHl => exact one.modify.regs
  | incMemXy xy d | decMemXy xy d => exact xy3.modify.regs
  | incXyHalf xy j | decXyHalf xy j => exact two.regs.setHalf
  -- 44_general_control
  | daa | cpl | ccf | scf | nop | halt | di | ei | noni xy => exact one.same
  | neg u | im0 u v | im1 u | im2 u | nopEd7 u | nopEd0 x | nopEd8 x | nopEdA x x' | nopEdC x => exact two.same
  -- 45_arith16
  | addHlSs ss => exact one.internal.regs.setHl
  | adcHlSs ss | sbcHlSs ss => exact two.internal.regs.setHl
  | addXyPp xy pp => exact two.internal.regs.setXy
  | incSs ss | decSs ss => exact one.internal.setDd
  | incXy xy | decXy xy => exact two.internal.setXy
  -- 46_rotate_shift
  | rlca | rla | rrca | rra => exact one.same
  | rlcR r | rrcR r | rlR r | rrR r | slaR r | sraR r | sllR r | srlR r => exact two.regs.setR8
  | rlcMemHl | rrcMemHl | rlMemHl | rrMemHl | slaMemHl | sraMemHl | sllMemHl | srlMemHl => exact two.modify.regs
  | rlcMemXy xy d | rrcMemXy xy d | rlMemXy xy d | rrMemXy xy d | slaMemXy xy d | sraMemXy xy d | sllMemXy xy d
  | srlMemXy xy d => exact xy4.modify.regs
  | rlcMemXyR xy d r | rrcMemXyR xy d r | rlMemXyR xy d r | rrMemXyR xy d r | slaMemXyR xy d r | sraMemXyR xy d r
  | sllMemXyR xy d r | srlMemXyR xy d r => exact xy4.modify.regs.setR8
  | rld | rrd => exact two.cycle.internal.store8.regs
  -- 47_bit
  | bitR bit r => exact two.same
  | bitMemHl bit => exact two.cycle.cycle.regs
  | bitMemXy xy bit d z => exact xy4.cycle.cycle.regs
  | setR bit r | resR bit r => exact two.setR8
  | setMemHl bit | resMemHl bit => exact two.modify
  | setMemXy xy bit d | resMemXy xy bit d => exact xy4.modify
  | setMemXyR xy bit d r | resMemXyR xy bit d r => exact xy4.modify.setR8
  -- 48_jump_call_return
  | jpNn nn => exact one.fetch16.jumpTo
  | jpCcNn cc nn => exact one.fetch16.jumpTo.ite one.fetch16.regs
  | jr e => exact one.fetch8.jumpRel
  | jrC e | jrNc e | jrZ e | jrNz e => exact one.fetch8.jumpRel.ite one.fetch8
  | jpHl => exact one.same
  | jpXy xy => exact two.same
  | djnz e => exact one.internal.fetch8.regs.jumpRel.ite one.internal.fetch8.regs
  | callNn nn => exact one.fetch16.callTo
  | callCcNn cc nn =>
    change Answers _ (execCallCcNn cc nn s)
    unfold execCallCcNn
    cases condHolds s.f cc with
    | true => exact one.fetch16.callTo
    | false => exact one.fetch16.regs
  | ret => exact one.popPc
  | retCc cc => exact one.internal.popPc.ite one.internal
  | reti => exact (two.same (u := { fetchOp2 s with iff1 := (fetchOp2 s).iff2 })).popPc
  | retn u => exact (two.same (u := { fetchOp2 s with iff1 := (fetchOp2 s).iff2 })).popPc
  | rst t => exact one.internal.push16.jumpTo
  -- 49_io
  | inAN n => exact one.fetch8.ioCycle.regs
  | inRC r => exact two.ioCycle.regs.setR8
  | inC => exact two.ioCycle.regs
  | ini | ind => exact MemFrame.blockIn s
  | inir | indr => exact (MemFrame.blockIn s).internal.repeatPc.ite (.blockIn s)
  | outNA n => exact one.fetch8.outCycle.regs
  | outCR r | outC0 => exact two.outCycle.regs
  | outi | outd => exact MemFrame.blockOut s
  | otir | otdr => exact (MemFrame.blockOut s).internal.repeatPc.ite (.blockOut s)

end Sys2Proof.Machine
end

section
/-! PROOFS. The statements on what memory and the page map keep: `MemoryFrame` and `PagingLock`. -/

namespace Sys2Proof.Machine

/-- Settles O53, by the memory frame of every instruction; an address reads the byte it names. -/
theorem memoryFrame : Obligations.MemoryFrame := by
  intro i s t h
  have frame := (exec_memFrame i s).of_next h
  refine ⟨fun q off hoff hw => frame.bytes (q, off) hoff hw, fun hport a hw => ?_⟩
  rw [hport] at frame
  rw [read8_eq_byteAt, read8_eq_byteAt, frame.placeOf_eq]
  exact frame.bytes (placeOf s a) (placeOf_lt s a) hw

/-- A step that runs no instruction leaves the latches and the log. -/
theorem cpuStep_response_ports {s t : State} (h : cpuStep s = .next t) (hk : stepKind s ≠ .instruction) :
    SamePorts s t := by
  unfold cpuStep at h
  cases hs : stepKind s <;> simp only [hs] at h
  case nmi =>
    cases h
    exact (enterTrap_frame 5 { s with inhibit := false, nmiPending := false }).ports rfl
  case int => exact (intResponse_frame h).ports rfl
  case haltedCycle =>
    cases h
    exact ⟨rfl, rfl, rfl, rfl, rfl, rfl, rfl⟩
  case instruction => exact absurd hs hk

/-- No step of the CPU changes a latch that is locked or absent. -/
theorem cpuStep_paging {s t : State} (h : cpuStep s = .next t) (hs : PagingFixed s) : t.paging = s.paging := by
  by_cases hk : stepKind s = .instruction
  · unfold cpuStep runInstr at h
    simp only [hk] at h
    split at h
    · exact ((exec_memFrame _ { s with inhibit := false }).of_next h).paging (.inr hs)
    · cases h
  · exact (cpuStep_response_ports h hk).1

/-- The coordinator writes no latch. -/
theorem coordinate_paging (s : State) : (coordinate s).paging = s.paging := by
  unfold coordinate raiseInt startFrame endFrame raiseLate
  split
  · rfl
  · split_ifs <;> rfl

/-- Settles O44 (in the model `pagingLock` names the bit): the coordinator writes no latch, and no instruction or
response writes one that is fixed. -/
theorem stepPagingLock : Obligations.PagingLock := by
  intro s t h
  have fixed : PagingFixed s → t.paging = s.paging := by
    intro hs
    have hc : PagingFixed (coordinate s) := by
      rw [PagingFixed, coordinate_paging, (coordinate_keeps s).inputs.1]
      exact hs
    exact (cpuStep_paging h hc).trans (coordinate_paging s)
  exact ⟨fun hlock => fixed (.inl hlock), fun hmodel => fixed (.inr hmodel)⟩

end Sys2Proof.Machine
end

section
/-! PROOFS. The fields of an opcode byte (30_encoding R112 to R115) and the two bytes of a word. -/

namespace Sys2Proof

/-- A byte is its three fields `x`, `y` and `z`, beside each other. -/
theorem exists_fields (op : Byte) : ∃ (x : BitVec 2) (y z : BitVec 3), op = x ++ y ++ z :=
  ⟨op.extractLsb' 6 2, op.extractLsb' 3 3, op.extractLsb' 0 3, by revert op; decide⟩

@[simp] theorem extract_y_fields (x : BitVec 2) (y z : BitVec 3) : (x ++ y ++ z).extractLsb' 3 3 = y := by
  revert x y z
  decide

@[simp] theorem extract_z_fields (x : BitVec 2) (y z : BitVec 3) : (x ++ y ++ z).extractLsb' 0 3 = z :=
  BitVec.extractLsb'_append_eq_right

@[simp] theorem opX_append (x : BitVec 2) (v : BitVec 6) : opX (x ++ v) = x.toNat := by
  rw [opX, BitVec.extractLsb'_append_eq_left]

theorem extract_append (x : BitVec 2) (v : BitVec 6) : (x ++ v).extractLsb' 0 6 = v :=
  BitVec.extractLsb'_append_eq_right

@[simp] theorem opX_fields (x : BitVec 2) (y z : BitVec 3) : opX (x ++ y ++ z) = x.toNat := by
  revert x y z
  decide

@[simp] theorem opY_fields (x : BitVec 2) (y z : BitVec 3) : opY (x ++ y ++ z) = y.toNat :=
  congrArg BitVec.toNat (extract_y_fields x y z)

@[simp] theorem opZ_fields (x : BitVec 2) (y z : BitVec 3) : opZ (x ++ y ++ z) = z.toNat :=
  congrArg BitVec.toNat (extract_z_fields x y z)

theorem append_extract_yz (x : BitVec 2) (y z : BitVec 3) : x ++ (x ++ y ++ z).extractLsb' 0 6 = x ++ y ++ z := by
  revert x y z
  decide

/-- The two values of a field of one bit. -/
theorem field1_cases {motive : BitVec 1 → Prop} (v0 : motive 0#1) (v1 : motive 1#1) (u : BitVec 1) : motive u := by
  have all : u = 0#1 ∨ u = 1#1 := by
    revert u
    decide
  rcases all with rfl | rfl <;> assumption

/-- The four values of a field of two bits. -/
theorem field2_cases {motive : BitVec 2 → Prop} (v0 : motive 0#2) (v1 : motive 1#2) (v2 : motive 2#2)
    (v3 : motive 3#2) (x : BitVec 2) : motive x := by
  have all : x = 0#2 ∨ x = 1#2 ∨ x = 2#2 ∨ x = 3#2 := by
    revert x
    decide
  rcases all with rfl | rfl | rfl | rfl <;> assumption

/-- The eight values of a field of three bits. -/
theorem field3_cases {motive : BitVec 3 → Prop} (v0 : motive 0#3) (v1 : motive 1#3) (v2 : motive 2#3)
    (v3 : motive 3#3) (v4 : motive 4#3) (v5 : motive 5#3) (v6 : motive 6#3) (v7 : motive 7#3) (y : BitVec 3) :
    motive y := by
  have all : y = 0#3 ∨ y = 1#3 ∨ y = 2#3 ∨ y = 3#3 ∨ y = 4#3 ∨ y = 5#3 ∨ y = 6#3 ∨ y = 7#3 := by
    revert y
    decide
  rcases all with rfl | rfl | rfl | rfl | rfl | rfl | rfl | rfl <;> assumption

@[simp] theorem R8.ofCode_code (r : R8) : R8.ofCode r.code.toNat = some r := by cases r <;> rfl

@[simp] theorem R8.ofCode_six : R8.ofCode 6 = none := rfl

/-- A register code is a register's, or 6 (30_encoding R113). -/
theorem regCode_cases {motive : BitVec 3 → Prop} (reg : ∀ r : R8, motive r.code) (six : motive 6#3) (y : BitVec 3) :
    motive y := by
  cases y using field3_cases
  exacts [reg .b, reg .c, reg .d, reg .e, reg .h, reg .l, six, reg .a]

@[simp] theorem lo_wordOf (lo hi : Byte) : (wordOf lo hi).extractLsb' 0 8 = lo := BitVec.extractLsb'_append_eq_right

@[simp] theorem hi_wordOf (lo hi : Byte) : (wordOf lo hi).extractLsb' 8 8 = hi := BitVec.extractLsb'_append_eq_left

/-- A word is its two bytes, the low one first (20_memory R72). -/
theorem exists_wordOf (nn : Word) : ∃ lo hi, nn = wordOf lo hi := by
  have joined : wordOf (nn.extractLsb' 0 8) (nn.extractLsb' 8 8) = nn :=
    (BitVec.extractLsb'_append_extractLsb'_eq_extractLsb' (by rfl)).trans BitVec.extractLsb'_eq_self
  exact ⟨_, _, joined.symm⟩

end Sys2Proof
end

section
/-! PROOFS. The pages of the decoder against the encoding column (30_encoding R118 to R126): whatever form a page
answers for an opcode, the form completes the bytes read so far to the encoding of a well-formed instruction. -/

namespace Sys2Proof

/-- The form completes the bytes `pre` that led to it to the bytes of a well-formed instruction, whatever its
operands. -/
inductive Form.Encodes (pre : List Byte) : Form → Prop
  | plain {i : Instr} (bytes : encode i = pre) (wf : i.WellFormed = true) : Encodes pre (.plain i)
  | imm8 {f : Byte → Instr} (bytes : ∀ n, encode (f n) = pre ++ [n]) (wf : ∀ n, (f n).WellFormed = true) :
    Encodes pre (.imm8 f)
  | imm16 {f : Word → Instr} (bytes : ∀ nn, encode (f nn) = pre ++ [nn.extractLsb' 0 8, nn.extractLsb' 8 8])
    (wf : ∀ nn, (f nn).WellFormed = true) : Encodes pre (.imm16 f)
  | imm88 {f : Byte → Byte → Instr} (bytes : ∀ d n, encode (f d n) = pre ++ [d, n])
    (wf : ∀ d n, (f d n).WellFormed = true) : Encodes pre (.imm88 f)

/-- The first bytes that select another page (30_encoding R111). -/
def pageSelectors : List Byte := [0xCB, 0xED, 0xDD, 0xFD]

theorem mem_pageSelectors {op : Byte} : op ∈ pageSelectors ↔ op = 0xCB ∨ op = 0xED ∨ op = 0xDD ∨ op = 0xFD := by
  simp only [pageSelectors, List.mem_cons, List.not_mem_nil, or_false]

/-- The byte that selects an index register (30_encoding R111, R112). -/
def XY.prefixByte (xy : XY) : Byte := 0b11#2 ++ xy.code ++ 0b11101#5

/-! ### The unprefixed page -/

/-- Every `y` and `z` has a row of its own, whose form decides which constructor applies. -/
theorem mainForm0_encodes (y z : BitVec 3) : (mainForm0 (0#2 ++ y ++ z)).Encodes [0#2 ++ y ++ z] := by
  cases z using field3_cases <;> cases y using field3_cases <;> constructor <;> intros <;> rfl

/-- The four opcodes without a row are the page selectors. -/
theorem mainForm3_encodes (y z : BitVec 3) (h : 3#2 ++ y ++ z ∉ pageSelectors) :
    (mainForm3 (3#2 ++ y ++ z)).Encodes [3#2 ++ y ++ z] := by
  cases z using field3_cases <;> cases y using field3_cases
  case v3.v1 | v5.v3 | v5.v5 | v5.v7 => exact absurd (by decide) h
  all_goals constructor <;> intros <;> rfl

theorem aluR_encodes (r : R8) (y : BitVec 3) : (aluR r y.toNat).Encodes [2#2 ++ y ++ r.code] := by
  cases y using field3_cases <;> exact .plain rfl rfl

theorem aluMemHl_encodes (y : BitVec 3) : (aluMemHl y.toNat).Encodes [2#2 ++ y ++ 6#3] := by
  cases y using field3_cases <;> exact .plain rfl rfl

/-- The four quarters of the page (30_encoding R121); in the second, 6 stands for `(HL)` and twice for HALT. -/
theorem mainForm_encodes (op : Byte) (h : op ∉ pageSelectors) : (mainForm op).Encodes [op] := by
  obtain ⟨x, y, z, rfl⟩ := exists_fields op
  cases x using field2_cases <;> simp only [mainForm, opX_fields, opY_fields, opZ_fields]
  case v0 => exact mainForm0_encodes y z
  case v1 =>
    cases y using regCode_cases <;> cases z using regCode_cases
    case six.six => exact .plain rfl rfl
    all_goals
      simp only [R8.ofCode_code]
      exact .plain rfl rfl
  case v2 =>
    cases z using regCode_cases with
    | reg r =>
      rw [R8.ofCode_code]
      exact aluR_encodes r y
    | six => exact aluMemHl_encodes y
  case v3 => exact mainForm3_encodes y z h

/-! ### The CB page -/

theorem rotR_encodes (r : R8) (y : BitVec 3) : (rotR r y.toNat).Encodes [0xCB, 0#2 ++ y ++ r.code] := by
  cases y using field3_cases <;> exact .plain rfl rfl

theorem rotMemHl_encodes (y : BitVec 3) : (rotMemHl y.toNat).Encodes [0xCB, 0#2 ++ y ++ 6#3] := by
  cases y using field3_cases <;> exact .plain rfl rfl

/-- Rotates, BIT, RES and SET (30_encoding R131), on a register or on `(HL)`. -/
theorem cbForm_encodes (op : Byte) : (cbForm op).Encodes [0xCB, op] := by
  obtain ⟨x, y, z, rfl⟩ := exists_fields op
  cases z using regCode_cases with
  | reg r =>
    simp only [cbForm, opX_fields, opY_fields, opZ_fields, extract_y_fields, R8.ofCode_code]
    cases x using field2_cases
    case v0 => exact rotR_encodes r y
    all_goals exact .plain rfl rfl
  | six =>
    simp only [cbForm, opX_fields, opY_fields, opZ_fields, extract_y_fields]
    cases x using field2_cases
    case v0 => exact rotMemHl_encodes y
    all_goals exact .plain rfl rfl

/-! ### The ED page -/

/-- The duplicates (30_encoding R126) have rows of their own, since the ignored bits are kept. -/
theorem edForm1_encodes (y z : BitVec 3) : (edForm1 (1#2 ++ y ++ z)).Encodes [0xED, 1#2 ++ y ++ z] := by
  cases z using field3_cases <;> cases y using field3_cases <;> constructor <;> intros <;> rfl

theorem edForm2_encodes (y z : BitVec 3) : (edForm2 (2#2 ++ y ++ z)).Encodes [0xED, 2#2 ++ y ++ z] := by
  cases z using field3_cases <;> cases y using field3_cases <;> exact .plain rfl rfl

theorem edForm_encodes (op : Byte) : (edForm op).Encodes [0xED, op] := by
  obtain ⟨x, y, z, rfl⟩ := exists_fields op
  cases x using field2_cases <;> simp only [edForm, opX_fields]
  case v0 | v3 => exact .plain (congrArg ([0xED, ·]) (append_extract_yz _ y z)) rfl
  case v1 => exact edForm1_encodes y z
  case v2 => exact edForm2_encodes y z

/-! ### The DD/FD page and the DDCB/FDCB page -/

/-- Each byte of `IDX_SET` but 0xCB has a row on the page. -/
theorem xyForm_encodes (xy : XY) : ∀ op ∈ idxSet, op ≠ 0xCB → (xyForm xy op).Encodes [xy.prefixByte, op] := by
  simp only [idxSet, List.cons_append, List.nil_append, List.forall_mem_cons, ne_eq, not_true_eq_false,
    false_implies, true_and, List.not_mem_nil, implies_true, and_true]
  and_intros
  all_goals
    intro
    constructor <;> intros <;> rfl

theorem rotMemXyR_encodes (xy : XY) (d : Byte) (r : R8) (y : BitVec 3) :
    (rotMemXyR xy d r y.toNat).Encodes [xy.prefixByte, 0xCB, d, 0#2 ++ y ++ r.code] := by
  cases y using field3_cases <;> exact .plain rfl rfl

theorem rotMemXy_encodes (xy : XY) (d : Byte) (y : BitVec 3) :
    (rotMemXy xy d y.toNat).Encodes [xy.prefixByte, 0xCB, d, 0#2 ++ y ++ 6#3] := by
  cases y using field3_cases <;> exact .plain rfl rfl

/-- The same operations on `(XY+d)`, copied to a register or not (30_encoding R123). -/
theorem xycbForm_encodes (xy : XY) (d op : Byte) : (xycbForm xy d op).Encodes [xy.prefixByte, 0xCB, d, op] := by
  obtain ⟨x, y, z, rfl⟩ := exists_fields op
  cases z using regCode_cases with
  | reg r =>
    simp only [xycbForm, opX_fields, opY_fields, opZ_fields, extract_y_fields, extract_z_fields, R8.ofCode_code]
    cases x using field2_cases
    case v0 => exact rotMemXyR_encodes xy d r y
    all_goals exact .plain rfl rfl
  | six =>
    simp only [xycbForm, opX_fields, opY_fields, opZ_fields, extract_y_fields, extract_z_fields]
    cases x using field2_cases
    case v0 => exact rotMemXy_encodes xy d y
    all_goals exact .plain rfl rfl

end Sys2Proof
end

section
/-! PROOFS. What the decoder does with every list of bytes: it reads the opcode of a page and completes its form, or
answers NONI, or stops short of four bytes. -/

namespace Sys2Proof

/-! ### The lengths of instructions -/

theorem encode_length (i : Instr) : (encode i).length = i.length := by cases i <;> rfl

theorem Instr.length_le_four (i : Instr) : i.length ≤ 4 := by cases i <;> exact Nat.le_of_ble_eq_true rfl

/-! ### Completing a form -/

/-- How many operand bytes a form still needs (30_encoding R118). -/
def Form.operands : Form → Nat
  | .noRow | .plain _ => 0
  | .imm8 _ => 1
  | .imm16 _ | .imm88 _ => 2

theorem Form.operands_le_two (f : Form) : f.operands ≤ 2 := by cases f <;> exact Nat.le_of_ble_eq_true rfl

/-- The operand bytes are all that completing a form reads. -/
theorem Form.length_of_complete {f : Form} {bs rest : List Byte} {i : Instr} (h : f.complete bs = .ok (i, rest)) :
    bs.length = f.operands + rest.length := by
  match f, bs, h with
  | .plain _, _, rfl => exact (Nat.zero_add _).symm
  | .imm8 _, _ :: bs', rfl => exact Nat.add_comm bs'.length 1
  | .imm16 _, _ :: _ :: bs', rfl => exact Nat.add_comm bs'.length 2
  | .imm88 _, _ :: _ :: bs', rfl => exact Nat.add_comm bs'.length 2

/-- The bytes read are the encoding of the instruction that a form is completed to. -/
theorem Form.Encodes.of_complete {pre bs rest : List Byte} {f : Form} {i : Instr} (enc : f.Encodes pre)
    (h : f.complete bs = .ok (i, rest)) : pre ++ bs = encode i ++ rest ∧ i.WellFormed = true := by
  cases enc with
  | plain bytes wf =>
    cases h
    exact ⟨by rw [bytes], wf⟩
  | imm8 bytes wf =>
    match bs, h with
    | n :: bs', rfl => exact ⟨by simp [bytes], wf n⟩
  | imm16 bytes wf =>
    match bs, h with
    | lo :: hi :: bs', rfl => exact ⟨by simp [bytes], wf (wordOf lo hi)⟩
  | imm88 bytes wf =>
    match bs, h with
    | d :: n :: bs', rfl => exact ⟨by simp [bytes], wf d n⟩

/-- Since no instruction has more than four bytes, the operands of a form lie within the first four. -/
theorem Form.Encodes.operands_le {pre : List Byte} {f : Form} (enc : f.Encodes pre) :
    pre.length + f.operands ≤ 4 := by
  have bound : ∀ {i ops}, encode i = pre ++ ops → pre.length + ops.length ≤ 4 := by
    intro i ops bytes
    rw [← List.length_append, ← bytes, encode_length]
    exact i.length_le_four
  cases enc with
  | plain bytes wf => exact bound (bytes.trans (List.append_nil pre).symm)
  | imm8 bytes wf => exact bound (bytes 0)
  | imm16 bytes wf => exact bound (bytes 0)
  | imm88 bytes wf => exact bound (bytes 0 0)

/-- A form of a page is completed as soon as its operand bytes are there. -/
theorem Form.Encodes.exists_complete {pre bs : List Byte} {f : Form} (enc : f.Encodes pre)
    (long : f.operands ≤ bs.length) : ∃ i rest, f.complete bs = .ok (i, rest) := by
  cases enc with
  | plain => exact ⟨_, _, rfl⟩
  | imm8 =>
    match bs, long with
    | n :: bs', _ => exact ⟨_, _, rfl⟩
  | imm16 =>
    match bs, long with
    | lo :: hi :: bs', _ => exact ⟨_, _, rfl⟩
  | imm88 =>
    match bs, long with
    | d :: n :: bs', _ => exact ⟨_, _, rfl⟩

/-! ### The page that the first bytes select (30_encoding R111, R123, R124) -/

theorem decode_cb (op : Byte) (bs : List Byte) : decode (0xCB :: op :: bs) = (cbForm op).complete bs := rfl

theorem decode_ed (op : Byte) (bs : List Byte) : decode (0xED :: op :: bs) = (edForm op).complete bs := rfl

theorem decode_prefixByte (xy : XY) (bs : List Byte) : decode (xy.prefixByte :: bs) = decodeXy xy bs := by
  cases xy <;> rfl

theorem decode_main {op : Byte} (h : op ∉ pageSelectors) (bs : List Byte) :
    decode (op :: bs) = (mainForm op).complete bs := by
  simp only [mem_pageSelectors, not_or] at h
  obtain ⟨cb, ed, dd, fd⟩ := h
  simp only [decode, if_neg cb, if_neg ed, if_neg dd, if_neg fd]

theorem decode_xycb (xy : XY) (d op : Byte) (bs : List Byte) :
    decode (xy.prefixByte :: 0xCB :: d :: op :: bs) = (xycbForm xy d op).complete bs :=
  decode_prefixByte xy _

theorem decode_xy {op : Byte} (mem : idxSet.contains op = true) (cb : op ≠ 0xCB) (xy : XY) (bs : List Byte) :
    decode (xy.prefixByte :: op :: bs) = (xyForm xy op).complete bs := by
  simp only [decode_prefixByte, decodeXy, if_pos mem, if_neg cb]

theorem decode_noni {b : Byte} (outside : idxSet.contains b = false) (xy : XY) (bs : List Byte) :
    decode (xy.prefixByte :: b :: bs) = .ok (.noni xy, b :: bs) := by
  simp only [decode_prefixByte, decodeXy, outside, Bool.false_eq_true, if_false]

/-- What the decoder does with a list of bytes. -/
inductive Decoded (bs : List Byte) : Prop
  | opcode {pre bs' : List Byte} {f : Form} (bytes : bs = pre ++ bs') (enc : f.Encodes pre)
    (answer : decode bs = f.complete bs')
  | noni {xy : XY} {bs' : List Byte} (bytes : bs = xy.prefixByte :: bs') (answer : decode bs = .ok (.noni xy, bs'))
  | truncated (short : bs.length < 4) (answer : decode bs = .error .truncated)

theorem decoded_prefixByte (xy : XY) (bs : List Byte) : Decoded (xy.prefixByte :: bs) := by
  match bs with
  | [] => exact .truncated (by simp) (decode_prefixByte xy [])
  | op :: bs =>
    cases mem : idxSet.contains op with
    | false => exact .noni rfl (decode_noni mem xy bs)
    | true =>
      by_cases cb : op = 0xCB
      · subst cb
        match bs with
        | [] | [_] => exact .truncated (by simp) (decode_prefixByte xy _)
        | d :: op' :: bs =>
          exact .opcode (pre := [xy.prefixByte, 0xCB, d, op']) rfl (xycbForm_encodes xy d op') (decode_xycb xy d op' bs)
      · exact .opcode (pre := [xy.prefixByte, op]) rfl (xyForm_encodes xy op (List.contains_iff_mem.mp mem) cb)
          (decode_xy mem cb xy bs)

theorem decoded (bs : List Byte) : Decoded bs := by
  match bs with
  | [] => exact .truncated (by simp) rfl
  | b0 :: bs =>
    by_cases sel : b0 ∈ pageSelectors
    · obtain rfl | rfl | rfl | rfl := mem_pageSelectors.mp sel
      · match bs with
        | [] => exact .truncated (by simp) rfl
        | op :: bs => exact .opcode (pre := [0xCB, op]) rfl (cbForm_encodes op) (decode_cb op bs)
      · match bs with
        | [] => exact .truncated (by simp) rfl
        | op :: bs => exact .opcode (pre := [0xED, op]) rfl (edForm_encodes op) (decode_ed op bs)
      · exact decoded_prefixByte .ix bs
      · exact decoded_prefixByte .iy bs
    · exact .opcode (pre := [b0]) rfl (mainForm_encodes b0 sel) (decode_main sel bs)

/-- Settles O3, by what the decoder does with a list of bytes: a page's form completes the bytes read to an encoding,
and NONI is its first byte alone. -/
theorem encodeDecode : Obligations.EncodeDecode := by
  intro bs i rest h
  cases decoded bs with
  | opcode bytes enc answer => exact bytes ▸ enc.of_complete (answer.symm.trans h)
  | noni bytes answer =>
    cases answer.symm.trans h
    exact ⟨bytes, rfl⟩
  | truncated short answer => cases answer.symm.trans h

/-- Four bytes are enough for any instruction (30_encoding R127). -/
theorem exists_decode {bs : List Byte} (long : 4 ≤ bs.length) : ∃ i rest, decode bs = .ok (i, rest) := by
  cases decoded bs with
  | opcode bytes enc answer =>
    rw [answer]
    have within := enc.operands_le
    rw [bytes, List.length_append] at long
    exact enc.exists_complete (by omega)
  | noni bytes answer => exact ⟨_, _, answer⟩
  | truncated short answer => omega

end Sys2Proof
end

section
/-! PROOFS. The encoding of every instruction, decoded: `DecodeEncode`. -/

namespace Sys2Proof

/-- `LD p,p'` stands in `IDX_SET` exactly when it names a half of the index register (40_load8 R168). -/
theorem contains_ldPP (p p' : P8) : idxSet.contains (0b01#2 ++ p.code ++ p'.code) = (p.isHalf || p'.isHalf) := by
  cases p <;> cases p' <;> rfl

theorem xyForm_ldPP (xy : XY) (p p' : P8) : xyForm xy (0b01#2 ++ p.code ++ p'.code) = .plain (.ldPP xy p p') := by
  cases p <;> cases p' <;> rfl

theorem load_ne_cb (y z : BitVec 3) : 0b01#2 ++ y ++ z ≠ (0xCB : Byte) := by
  revert y z
  decide

theorem decode_encode_ldPP {xy : XY} {p p' : P8} (wf : (Instr.ldPP xy p p').WellFormed = true) (rest : List Byte) :
    decode (encode (.ldPP xy p p') ++ rest) = .ok (.ldPP xy p p', rest) := by
  have row := decode_xy ((contains_ldPP p p').trans wf) (load_ne_cb p.code p'.code) xy rest
  rw [xyForm_ldPP] at row
  exact row

/-- A form without operands is the instruction. -/
theorem decode_of_plain {bs bs' : List Byte} {f : Form} {i : Instr} (page : decode bs = f.complete bs')
    (h : f = .plain i) : decode bs = .ok (i, bs') := by
  rw [page, h]
  rfl

/-- The five low bits of `nopEd8`, as two fields. -/
theorem exists_fields5 (v : BitVec 5) : ∃ (y : BitVec 2) (z : BitVec 3), v = y ++ z :=
  ⟨v.extractLsb' 3 2, v.extractLsb' 0 3, by revert v; decide⟩

/-- Every well-formed instruction but NONI is decoded from its encoding: one row of the opcode table a case, for each
value of the fields that its opcode byte holds. -/
theorem decode_encode {i : Instr} (wf : i.WellFormed = true) (ordinary : ∀ xy, i ≠ .noni xy) (rest : List Byte) :
    decode (encode i ++ rest) = .ok (i, rest) := by
  cases i
  case noni xy => exact absurd rfl (ordinary xy)
  case ldPP xy p p' => exact decode_encode_ldPP wf rest
  case retn u =>
    cases u using field3_cases
    case v1 => cases wf
    all_goals rfl
  -- the rows with a 16-bit operand, whose two bytes make the word again
  case ldMemNnHl nn | ldHlMemNn nn | ldMemNnA nn | ldAMemNn nn | jpNn nn | callNn nn =>
    obtain ⟨lo, hi, rfl⟩ := exists_wordOf nn
    rw [encode, lo_wordOf, hi_wordOf]
    rfl
  case jpCcNn cc nn | callCcNn cc nn =>
    obtain ⟨lo, hi, rfl⟩ := exists_wordOf nn
    rw [encode, lo_wordOf, hi_wordOf]
    cases cc <;> rfl
  case ldDdNn dd nn | ldMemNnDd dd nn | ldDdMemNn dd nn =>
    obtain ⟨lo, hi, rfl⟩ := exists_wordOf nn
    rw [encode, lo_wordOf, hi_wordOf]
    cases dd <;> rfl
  case ldXyNn xy nn | ldMemNnXy xy nn | ldXyMemNn xy nn =>
    obtain ⟨lo, hi, rfl⟩ := exists_wordOf nn
    rw [encode, lo_wordOf, hi_wordOf]
    cases xy <;> rfl
  -- a pair or a condition in the opcode byte
  case addHlSs dd | incSs dd | decSs dd | sbcHlSs dd | adcHlSs dd => cases dd <;> rfl
  case popQq qq | pushQq qq => cases qq <;> rfl
  case addXyPp xy pp => cases xy <;> cases pp <;> rfl
  case retCc cc => cases cc <;> rfl
  -- a register in the opcode byte
  case incR r | decR r | ldRN r n | ldRMemHl r | ldMemHlR r | addR r | adcR r | subR r | sbcR r | andR r | xorR r |
      orR r | cpR r | rlcR r | rrcR r | rlR r | rrR r | slaR r | sraR r | sllR r | srlR r | inRC r | outCR r =>
    cases r <;> rfl
  case ldRR r r' => cases r <;> cases r' <;> rfl
  case ldRMemXy xy r d | ldMemXyR xy r d | rlcMemXyR xy d r | rrcMemXyR xy d r | rlMemXyR xy d r | rrMemXyR xy d r |
      slaMemXyR xy d r | sraMemXyR xy d r | sllMemXyR xy d r | srlMemXyR xy d r =>
    cases xy <;> cases r <;> rfl
  -- a bit number, a restart, or bits that the instruction ignores
  case bitR bit r | resR bit r | setR bit r => exact decode_of_plain (decode_cb _ rest) (by simp [cbForm])
  case bitMemHl bit | resMemHl bit | setMemHl bit => exact decode_of_plain (decode_cb _ rest) (by simp [cbForm])
  case bitMemXy xy bit d z => exact decode_of_plain (decode_xycb xy d _ rest) (by simp [xycbForm])
  case resMemXy xy bit d | setMemXy xy bit d => exact decode_of_plain (decode_xycb xy d _ rest) (by simp [xycbForm])
  case resMemXyR xy bit d r | setMemXyR xy bit d r =>
    exact decode_of_plain (decode_xycb xy d _ rest) (by simp [xycbForm])
  case rst t | neg t => cases t using field3_cases <;> rfl
  case nopEd0 x | nopEdC x =>
    exact decode_of_plain (decode_ed _ rest) (by rw [edForm, opX_append, extract_append]; rfl)
  case nopEd8 x =>
    obtain ⟨y, z, rfl⟩ := exists_fields5 x
    cases y using field2_cases <;> cases z using field3_cases <;> rfl
  case nopEdA x x' => cases x using field2_cases <;> cases x' using field2_cases <;> rfl
  case nopEd7 u | im1 u | im2 u => cases u using field1_cases <;> rfl
  case im0 u v => cases u using field1_cases <;> cases v using field1_cases <;> rfl
  -- the other rows of the index register pages
  case incXyHalf xy j | decXyHalf xy j | ldXyHalfN xy j n | addXyHalf xy j | adcXyHalf xy j | subXyHalf xy j |
      sbcXyHalf xy j | andXyHalf xy j | xorXyHalf xy j | orXyHalf xy j | cpXyHalf xy j =>
    cases xy <;> cases j <;> rfl
  case incXy xy | decXy xy | incMemXy xy d | decMemXy xy d | ldMemXyN xy d n | addMemXy xy d | adcMemXy xy d |
      subMemXy xy d | sbcMemXy xy d | andMemXy xy d | xorMemXy xy d | orMemXy xy d | cpMemXy xy d | popXy xy |
      exSpXy xy | pushXy xy | jpXy xy | ldSpXy xy | rlcMemXy xy d | rrcMemXy xy d | rlMemXy xy d | rrMemXy xy d |
      slaMemXy xy d | sraMemXy xy d | sllMemXy xy d | srlMemXy xy d =>
    cases xy <;> rfl
  -- no field in the opcode byte
  all_goals rfl

/-- Settles O2, by the rows of the opcode table; a NONI is its first byte alone when the next is outside `IDX_SET`. -/
theorem decodeEncode : Obligations.DecodeEncode := by
  intro i rest wf follow
  by_cases noni : ∃ xy, i = .noni xy
  · obtain ⟨xy, rfl⟩ := noni
    obtain ⟨b, bs, rfl, outside⟩ := follow xy rfl
    exact decode_noni outside xy bs
  · exact decode_encode wf (not_exists.mp noni) rest

end Sys2Proof
end

section
/-! PROOFS. Lengths and uniqueness of the instruction in four bytes, and the listing of `IDX_SET`: `Lengths`,
`DecodeTotal`, `IdxSet`. -/

namespace Sys2Proof

/-- The bytes of an instruction and the bytes after it are all bytes. -/
theorem length_add_of_decode {bs rest : List Byte} {i : Instr} (h : decode bs = .ok (i, rest)) :
    i.length + rest.length = bs.length := by
  rw [(encodeDecode bs i rest h).1, List.length_append, encode_length]

theorem drop_of_decode {bs rest : List Byte} {i : Instr} (h : decode bs = .ok (i, rest)) :
    rest = bs.drop i.length := by
  rw [(encodeDecode bs i rest h).1, ← encode_length, List.drop_left]

/-- The length of an instruction is that of the bytes which led to its form, and its operands. -/
theorem length_of_form {pre bs rest : List Byte} {f : Form} {i : Instr} (page : decode (pre ++ bs) = f.complete bs)
    (h : decode (pre ++ bs) = .ok (i, rest)) : i.length = pre.length + f.operands := by
  have all := length_add_of_decode h
  have read := Form.length_of_complete (page.symm.trans h)
  rw [List.length_append] at all
  omega

theorem cbForm_operands (op : Byte) : (cbForm op).operands = 0 := by
  revert op
  decide

/-- The second bytes of the eight word loads and stores (30_encoding R125, R128). -/
theorem edForm_operands (op : Byte) :
    (edForm op).operands = if op ∈ [(0x43 : Byte), 0x4B, 0x53, 0x5B, 0x63, 0x6B, 0x73, 0x7B] then 2 else 0 := by
  revert op
  decide

theorem xycbForm_operands (xy : XY) (d op : Byte) : (xycbForm xy d op).operands = 0 := by
  have within := (xycbForm_encodes xy d op).operands_le
  simp only [List.length_cons, List.length_nil] at within
  omega

/-- The lengths after a DD or FD byte (30_encoding R128). -/
theorem length_of_prefixByte {xy : XY} {b1 b2 b3 : Byte} {i : Instr} {rest : List Byte}
    (h : decode [xy.prefixByte, b1, b2, b3] = .ok (i, rest)) :
    if idxSet.contains b1 = false then i.length = 1
    else if b1 = 0xCB then i.length = 4
    else 2 ≤ i.length ∧ i.length ≤ 4 := by
  split_ifs with outside cb
  · cases (decode_noni outside xy [b2, b3]).symm.trans h
    rfl
  · subst cb
    rw [length_of_form (pre := [xy.prefixByte, 0xCB, b2, b3]) (decode_xycb xy b2 b3 []) h, xycbForm_operands]
    rfl
  · have page := decode_xy (Bool.eq_true_of_not_eq_false outside) cb xy [b2, b3]
    have len := length_of_form (pre := [xy.prefixByte, b1]) page h
    have two := (xyForm xy b1).operands_le_two
    simp only [List.length_cons, List.length_nil] at len
    omega

end Sys2Proof

namespace Sys2Proof.Machine

/-- Settles O6, by the operands of the forms on each page. -/
theorem lengths : Obligations.Lengths := by
  intro b0 b1 b2 b3 i rest h
  refine ⟨drop_of_decode h, ?_⟩
  split
  next cb =>
    subst cb
    rw [length_of_form (pre := [0xCB, b1]) (decode_cb b1 [b2, b3]) h, cbForm_operands]
    rfl
  next cb =>
    split
    next ed =>
      subst ed
      rw [length_of_form (pre := [0xED, b1]) (decode_ed b1 [b2, b3]) h, edForm_operands]
      split_ifs <;> rfl
    next ed =>
      split
      next prefixed =>
        obtain rfl | rfl := prefixed
        · exact length_of_prefixByte (xy := .ix) h
        · exact length_of_prefixByte (xy := .iy) h
      next prefixed =>
        have main : b0 ∉ pageSelectors := by
          rw [mem_pageSelectors, or_iff_right cb, or_iff_right ed]
          exact prefixed
        have len := length_of_form (pre := [b0]) (decode_main main [b1, b2, b3]) h
        have two := (mainForm b0).operands_le_two
        simp only [List.length_cons, List.length_nil] at len
        omega

/-- What four bytes decode to, they begin with: a NONI was answered because of the byte after it. -/
theorem matchesBytes_of_decode {b0 b1 b2 b3 : Byte} {i : Instr} {rest : List Byte}
    (h : decode [b0, b1, b2, b3] = .ok (i, rest)) : MatchesBytes i [b0, b1, b2, b3] := by
  obtain ⟨bytes, wf⟩ := encodeDecode _ i rest h
  refine ⟨wf, by rw [bytes, ← encode_length, List.take_left], ?_⟩
  rintro xy rfl b hb
  cases hb
  obtain ⟨rfl, -⟩ := List.cons.inj bytes
  have len := length_of_prefixByte h
  split_ifs at len with outside
  · exact outside
  · cases len
  · exact absurd len.1 (Nat.not_succ_le_self 1)

/-- An instruction that bytes begin with is the one they decode to. -/
theorem decode_of_matchesBytes {b0 b1 b2 b3 : Byte} {j : Instr} (h : MatchesBytes j [b0, b1, b2, b3]) :
    decode [b0, b1, b2, b3] = .ok (j, [b0, b1, b2, b3].drop j.length) := by
  obtain ⟨wf, bytes, noni⟩ := h
  have decoded := decodeEncode j ([b0, b1, b2, b3].drop j.length) wf ?_
  · rwa [← bytes, List.take_append_drop] at decoded
  · rintro xy rfl
    exact ⟨b1, [b2, b3], rfl, noni xy rfl b1 rfl⟩

/-- Settles O1: four bytes are enough to decode, and what they begin with is what they decode to. -/
theorem decodeTotal : Obligations.DecodeTotal := by
  intro b0 b1 b2 b3
  obtain ⟨i, rest, h⟩ := exists_decode (bs := [b0, b1, b2, b3]) (le_refl 4)
  refine ⟨i, drop_of_decode h ▸ h, matchesBytes_of_decode h, fun j hj => ?_⟩
  cases (decode_of_matchesBytes hj).symm.trans h
  rfl

/-- Settles O5 (in the model `idxSet` names the list), by the listing, a quarter of the bytes at a time. -/
theorem idxSetFields : Obligations.IdxSet := by
  intro b
  obtain ⟨x, y, z, rfl⟩ := exists_fields b
  revert y z
  cases x using field2_cases <;> decide

end Sys2Proof.Machine
end

section
/-! PROOFS. The 8-bit load group (40_load8): `Load8` and `LoadA`. Every meaning is a run of its fetches and cycles
(Laws/Ops), so a form is settled by the lemma that says which run its operand form makes. -/

namespace Sys2Proof.Machine

/-! ### The flag byte as its eight flags -/

/-- Flag bytes combine flag by flag. -/
theorem mkF_or (a b c d e f g h a' b' c' d' e' f' g' h' : Bool) :
    mkF a b c d e f g h ||| mkF a' b' c' d' e' f' g' h' =
      mkF (a || a') (b || b') (c || c') (d || d') (e || e') (f || f') (g || g') (h || h') := by
  simp only [mkF, ← BitVec.ofBool_or_ofBool]
  repeat rw [BitVec.or_append]

/-- `sz53` flag by flag (43_arith8 R250). -/
theorem sz53_eq_mkF (v : Byte) :
    sz53 v = mkF (v.getLsbD 7) (v == 0) (v.getLsbD 5) false (v.getLsbD 3) false false false := by
  revert v
  decide

theorem and_one_eq_mkF (f : Byte) : f &&& 0x01 = mkF false false false false false false false (flagC f) := by
  revert f
  decide

theorem ite_pv_eq_mkF (c : Bool) : (if c then 0x04 else 0) = mkF false false false false false c false false := by
  cases c <;> rfl

/-- The flags of `LD A,I` and `LD A,R` (R164, R165): IFF2 in PV, C kept. -/
theorem ldAirFlags_eq_mkF (f a : Byte) (iff2 : Bool) :
    ldAirFlags f a iff2 = mkF (a.getLsbD 7) (a == 0) (a.getLsbD 5) false (a.getLsbD 3) iff2 false (flagC f) := by
  rw [ldAirFlags, and_one_eq_mkF, sz53_eq_mkF, ite_pv_eq_mkF, mkF_or, mkF_or]
  simp only [Bool.false_or, Bool.or_false]

/-! ### The accesses that follow the fetches -/

/-- A read cycle after fetches and time. -/
theorem cycle_after (s : State) (l m : Nat) (cs : List Cycle) (a : Word) (n : Nat) :
    cycle a n (ran s l m cs) = ran s l m (cs ++ [.mem a n]) := by
  rw [cycle_ran, ran_more]

/-- A load of A after fetches and time: the read cycle, the byte, MEMPTR the next address. -/
theorem loadA_after (s : State) (l m : Nat) (cs : List Cycle) (a : Word) :
    loadA a (ran s l m cs) =
      .next { ran s l m (cs ++ [.mem a 3]) with a := read8 s a, memptr := a + 1 } := by
  rw [loadA, cycle_after]
  rfl

/-- A store of A after fetches and time: the byte, the write cycle, MEMPTR A and the low byte of the address + 1. -/
theorem storeA_after (s : State) (l m : Nat) (cs : List Cycle) (a : Word) :
    storeA a (ran s l m cs) =
      .next { ran (write8 a s.a s) l m (cs ++ [.mem a 3]) with memptr := s.a ++ (loByte a + 1) } := by
  rw [storeA, store8_after, ran_a]

@[simp] theorem getXy_ran (s : State) (l m : Nat) (cs : List Cycle) (xy : XY) :
    getXy (ran s l m cs) xy = getXy s xy := by
  cases xy <;> rfl

theorem loByte_bc (s : State) : loByte s.bc = s.c := loByte_append s.b s.c

theorem loByte_de (s : State) : loByte s.de = s.e := loByte_append s.d s.e

/-- A meaning that ends in an update of a run answers that update. -/
theorem next_congr (update : State → State) {t u : State} (h : t = u) :
    (.next (update t) : Result) = .next (update u) := by
  rw [h]

/-! ### The statements -/

/-- Settles O17: each form is the run of its operand form, updated with what the form writes. -/
theorem load8 : Obligations.Load8 := by
  refine ⟨fun r r' s => ⟨rfl, ?_⟩, fun r n s => ⟨rfl, ?_⟩, fun r s => ⟨rfl, ?_⟩, fun xy r d s => ⟨rfl, ?_⟩,
    fun r s => ⟨rfl, ?_⟩, fun xy r d s => ⟨rfl, ?_⟩, fun n s => ⟨rfl, ?_⟩, fun xy d n s => ⟨rfl, ?_⟩,
    fun xy p p' s => ⟨rfl, ?_⟩, fun xy j n s => ⟨rfl, ?_⟩⟩
  · exact next_congr (setR8 r (getR8 s r')) (fetchOp_ran s)
  · exact next_congr (setR8 r n) (fetchN_ran s)
  · exact next_congr (setR8 r (read8 s s.hl)) (cycle_after s 1 1 (cyc1 s) s.hl 3)
  · exact next_congr (setR8 r (read8 s (indexAddr s xy d))) (indexed_cycle xy d s)
  · exact congrArg Host.Outcome.next (store8_after s 1 1 (cyc1 s) s.hl (getR8 s r))
  · exact congrArg Host.Outcome.next (indexed_store xy d (getR8 s r) s)
  · exact congrArg Host.Outcome.next ((congrArg (store8 s.hl n) (fetchN_ran s)).trans (store8_after s 2 1 _ s.hl n))
  · exact congrArg Host.Outcome.next (indexed4_store xy d n s)
  · exact next_congr (setP8 xy p (getP8 s xy p')) (fetchOp2_ran s)
  · change execLdXyHalfN xy j n s = _
    rw [execLdXyHalfN, fetch2N_ran]
    cases j <;> simp only [setHalf, getXy_ran]

/-- Settles O18 (in the model `loadA` names the shared load): the accesses of A by the shared load and store, the loads
of I and R by their shared fetches, with LD A,R reading R after them. -/
theorem loadAForms : Obligations.LoadA := by
  refine ⟨fun s => ⟨rfl, ?_, rfl, ?_, rfl, ?_, rfl, ?_⟩, fun nn s => ⟨rfl, ?_, rfl, ?_⟩,
    fun s => ⟨rfl, ?_, rfl, ?_, rfl, ?_, rfl, ?_⟩⟩
  · exact loadA_after s 1 1 (cyc1 s) s.bc
  · exact loadA_after s 1 1 (cyc1 s) s.de
  · rw [← loByte_bc]
    exact storeA_after s 1 1 (cyc1 s) s.bc
  · rw [← loByte_de]
    exact storeA_after s 1 1 (cyc1 s) s.de
  · exact (congrArg (loadA nn) (fetchNn_ran s)).trans (loadA_after s 3 1 (cycNn1 s) nn)
  · exact (congrArg (storeA nn) (fetchNn_ran s)).trans (storeA_after s 3 1 (cycNn1 s) nn)
  · change execLdAI s = _
    rw [execLdAI, fetchIr_ran, ldAirFlags_eq_mkF]
    rfl
  · change execLdAR s = _
    rw [execLdAR, fetchIr_ran, ldAirFlags_eq_mkF]
    rfl
  · exact next_congr (fun t => { t with i := t.a }) (fetchIr_ran s)
  · exact next_congr (fun t => { t with r := t.a }) (fetchIr_ran s)

end Sys2Proof.Machine
end

section
/-! PROOFS. The 16-bit loads, PUSH and POP, and the exchanges (41_load16, R220 to R224 of 42_exchange_block): `Load16`
and `StackExchange`. What each shared word access answers after fetches and time is said once; a form is its fetches
(Laws/Ops) followed by that access. -/

namespace Sys2Proof.Machine

/-! ### HL as its two registers -/

theorem setHl_append (h l : Byte) (s : State) : setHl (h ++ l) s = { s with h := h, l := l } := by
  rw [setHl, hiByte_append, loByte_append]

theorem hiByte_hl (s : State) : hiByte s.hl = s.h := hiByte_append s.h s.l

theorem loByte_hl (s : State) : loByte s.hl = s.l := loByte_append s.h s.l

/-! ### The word accesses that follow the fetches -/

section

variable (s : State) (l m : Nat) (cs : List Cycle) (nn v : Word)

/-- The reads of a word load (R192 to R194), low address first, and MEMPTR. -/
theorem loadWord_after :
    loadWord nn (ran s l m cs) =
      { ran s l m (cs ++ [.mem nn 3, .mem (nn + 1) 3]) with memptr := nn + 1 } := by
  rw [loadWord, cycle16_ran, ran_more]

/-- The stores of a word (R195 to R197), low byte first, and MEMPTR. -/
theorem storeWord_after :
    storeWord nn v (ran s l m cs) =
      .next { ran (written16 nn v s) l m (cs ++ [.mem nn 3, .mem (nn + 1) 3]) with memptr := nn + 1 } := by
  rw [storeWord, store16_after]

/-- A load of SP (R198, R199): two T-states at the `ir` address the fetches left. -/
theorem loadSp_after :
    loadSp v (ran s l m cs) = .next { ran s l m (cs ++ [.idle (irAfter s m) 2]) with sp := v } := by
  rw [loadSp, internal_ran, ran_more]
  rfl

/-- A push after one T-state at the `ir` address the fetches left (R200, R201). -/
theorem pushAfterIr_after :
    pushAfterIr v (ran s l m cs) = ran (pushed16 v s) l m (cs ++ [.idle (irAfter s m) 1] ++ cycPush s) := by
  rw [pushAfterIr, internal_ran, ran_more, push16_after]
  rfl

/-- An exchange with the top of the stack (R223, R224): two reads and a T-state, the high byte written before the low
one, two T-states, MEMPTR the word that was read. -/
theorem exchangeTop_after :
    exchangeTop v (ran s l m cs) =
      { ran (write8 s.sp (loByte v) (write8 (s.sp + 1) (hiByte v) s)) l m (cs ++ [.mem s.sp 3, .mem (s.sp + 1) 3,
          .idle (s.sp + 1) 1, .mem (s.sp + 1) 3, .mem s.sp 3, .idle s.sp 2]) with memptr := read16 s s.sp } := by
  rw [exchangeTop, ran_sp, cycle16_ran, ran_more, cycle1_ran, ran_more, store8_after, store8_after, internal_ran,
    ran_more]
  simp only [List.append_assoc]
  rfl

end

/-! ### The statements -/

/-- Settles O19: each load is its fetches followed by the shared word access, if any, and the pair it writes. -/
theorem load16 : Obligations.Load16 := by
  refine ⟨fun dd nn s => ⟨rfl, ?_, rfl, ?_, rfl, ?_, rfl, ?_, rfl, ?_⟩,
    fun xy nn s => ⟨rfl, ?_, rfl, ?_, rfl, ?_, rfl, ?_, rfl, ?_⟩⟩
  · exact next_congr (setDd dd nn) (fetchNn_ran s)
  · change execLdHlMemNn nn s = _
    rw [execLdHlMemNn, fetchNn_ran, loadWord_after]
    exact congrArg Host.Outcome.next (setHl_append _ _ _)
  · change execLdDdMemNn dd nn s = _
    rw [execLdDdMemNn, fetch2Nn_ran, loadWord_after]
    rfl
  · change execLdMemNnHl nn s = _
    rw [execLdMemNnHl, fetchNn_ran, storeWord_after, written16, hiByte_hl, loByte_hl]
  · exact (congrArg (storeWord nn (getDd s dd)) (fetch2Nn_ran s)).trans (storeWord_after s 4 2 (cycNn2 s) nn _)
  · exact next_congr (setXy xy nn) (fetch2Nn_ran s)
  · change execLdXyMemNn xy nn s = _
    rw [execLdXyMemNn, fetch2Nn_ran, loadWord_after]
    rfl
  · exact (congrArg (storeWord nn (getXy s xy)) (fetch2Nn_ran s)).trans (storeWord_after s 4 2 (cycNn2 s) nn _)
  · exact (congrArg (loadSp (getXy s xy)) (fetchOp2_ran s)).trans (loadSp_after s 2 2 (cyc2 s) _)
  · exact loadSp_after s 1 1 (cyc1 s) s.hl

/-- Settles O20: pushes, pops and the exchange with the top of the stack by their shared accesses; the register
exchanges only fetch. -/
theorem stackExchange : Obligations.StackExchange := by
  refine ⟨fun qq s => ⟨rfl, ?_, rfl, ?_⟩, fun xy s => ⟨rfl, ?_, rfl, ?_⟩, fun s => ⟨rfl, rfl, rfl, rfl, rfl, rfl⟩,
    fun xy s => ⟨rfl, ?_, rfl, ?_⟩⟩
  · exact congrArg Host.Outcome.next (pushAfterIr_after s 1 1 (cyc1 s) (getQq s qq))
  · exact next_congr (setQq qq (read16 s s.sp)) (pop16_after s 1 1 (cyc1 s))
  · change execPushXy xy s = _
    rw [execPushXy, fetchOp2_ran, pushAfterIr_after]
  · change execPopXy xy s = _
    rw [execPopXy, fetchOp2_ran, pop16_after]
    rfl
  · change execExSpHl s = _
    rw [execExSpHl, fetchOp_ran, exchangeTop_after, hiByte_hl, loByte_hl]
    exact congrArg Host.Outcome.next (setHl_append _ _ _)
  · change execExSpXy xy s = _
    rw [execExSpXy, fetchOp2_ran, exchangeTop_after]
    rfl

end Sys2Proof.Machine
end

section
/-! PROOFS. The block transfers and searches (42_exchange_block R225 to R233): `BlockTransferSearch`. One iteration is
its fetches and cycles (Laws/Ops) with the fields it writes, whatever time follows; a repeat is five such T-states with
PC and MEMPTR set back to the instruction. -/

namespace Sys2Proof.Machine

/-! ### The flags of a search -/

theorem sub8_fst_false (a v : Byte) : (sub8 a v false).1 = a - v := BitVec.sub_zero (a - v)

theorem flagH_sub8_false (a v : Byte) : flagH (sub8 a v false).2 = decide (a.toNat % 16 < v.toNat % 16) :=
  flagH_mkF ..

/-- The flags of `CPI` and the others (R229) from the difference and its half borrow. -/
theorem cpBlockFlags_eq_mkF (f a v : Byte) (bc : Word) :
    cpBlockFlags f a v bc =
      (let r := a - v
       let half := decide (a.toNat % 16 < v.toNat % 16)
       let n := r - (if half then 1 else 0)
       mkF (r.getLsbD 7) (r == 0) (n.getLsbD 1) half (n.getLsbD 3) (bc != 0) true (flagC f)) := by
  simp only [cpBlockFlags, sub8_fst_false, flagH_sub8_false]

/-! ### One iteration -/

section

variable (delta : Word) (s : State)

/-- A transfer (R225, R227) and the time `ds` that follows it. -/
theorem ran_transfer (ds : List Cycle) :
    ran (transfer delta s) 0 0 ds =
      setBc (s.bc - 1) (setDe (s.de + delta) (setHl (s.hl + delta)
        { ran (write8 s.de (read8 s s.hl) s) 2 2
            (cyc2 s ++ [.mem s.hl 3, .mem s.de 3, .idle s.de 2] ++ ds) with
          f := ldBlockFlags s.f s.a (read8 s s.hl) (s.bc - 1) })) := by
  have cycles : internal s.de 2 (store8 s.de (read8 s s.hl) (cycle s.hl 3 (fetchOp2 s))) =
      ran (write8 s.de (read8 s s.hl) s) 2 2 (cyc2 s ++ [.mem s.hl 3, .mem s.de 3, .idle s.de 2]) := by
    rw [fetchOp2_ran, cycle_after, store8_after, internal_ran, ran_more]
    simp only [List.append_assoc]
    rfl
  rw [transfer, cycles, ← ran_more _ 2 2 _ ds]
  rfl

/-- A search (R229, R231) and the time `ds` that follows it. -/
theorem ran_search (ds : List Cycle) :
    ran (search delta s) 0 0 ds =
      setBc (s.bc - 1) (setHl (s.hl + delta)
        { ran s 2 2 (cyc2 s ++ [.mem s.hl 3, .idle s.hl 5] ++ ds) with
          f := cpBlockFlags s.f s.a (read8 s s.hl) (s.bc - 1), memptr := s.memptr + delta }) := by
  have cycles : internal s.hl 5 (cycle s.hl 3 (fetchOp2 s)) = ran s 2 2 (cyc2 s ++ [.mem s.hl 3, .idle s.hl 5]) := by
    rw [fetchOp2_ran, cycle_after, internal_ran, ran_more, List.append_assoc]
    rfl
  rw [search, cycles, ← ran_more _ 2 2 _ ds]
  rfl

theorem transfer_pc : (transfer delta s).pc = s.pc + 2 := by
  rw [← ran_nil (transfer delta s), ran_transfer]
  exact congrArg (· + 2) (write8_pc s.de (read8 s s.hl) s)

theorem search_pc : (search delta s).pc = s.pc + 2 := by
  rw [← ran_nil (search delta s), ran_search]
  rfl

theorem transfer_bc : (transfer delta s).bc = s.bc - 1 := append_bytes (s.bc - 1)

theorem search_bc : (search delta s).bc = s.bc - 1 := append_bytes (s.bc - 1)

end

/-! ### The repeat -/

/-- A repeat (R226, R230) after an instruction of two bytes: five T-states, PC back to its first byte and MEMPTR the
address after that. -/
theorem repeatBlock_eq (a : Word) {s t : State} (h : t.pc = s.pc + 2) :
    repeatBlock a t = { ran t 0 0 [.idle a 5] with pc := s.pc, memptr := s.pc + 1 } := by
  have hpc : (repeatPc (ran t 0 0 [.idle a 5])).pc = s.pc := by
    simp only [repeatPc, ran_pc, h, BitVec.add_zero, BitVec.add_sub_cancel]
  rw [repeatBlock, internal_ran, hpc, ← hpc]
  rfl

/-- A repeating form whose condition to repeat is `c`: the repeat, or the iteration with no time after it. -/
theorem next_repeat_eq (a : Word) {s t : State} {c c' : Prop} [Decidable c] [Decidable c'] (hc : c ↔ c')
    (h : t.pc = s.pc + 2) :
    (.next (if c then repeatBlock a t else t) : Result) =
      .next (if c' then { ran t 0 0 [.idle a 5] with pc := s.pc, memptr := s.pc + 1 } else ran t 0 0 []) :=
  congrArg Host.Outcome.next (if_congr hc (repeatBlock_eq a h) (ran_nil t).symm)

theorem transfer_bc_ne_zero_iff (delta : Word) (s : State) : (transfer delta s).bc ≠ 0 ↔ s.bc - 1 ≠ 0 := by
  rw [transfer_bc]

/-- A search repeats (R230) while the new BC is not 0 and the difference is not 0. -/
theorem search_repeats_iff (delta : Word) (s : State) :
    (search delta s).bc ≠ 0 ∧ s.a ≠ read8 s s.hl ↔ s.bc - 1 ≠ 0 ∧ s.a - read8 s s.hl ≠ 0 :=
  and_congr (by rw [search_bc]) sub_ne_zero.symm

/-! ### The statement -/

/-- Settles O21: the single forms are one iteration and the repeating ones that iteration with or without the repeat. -/
theorem blockTransferSearch : Obligations.BlockTransferSearch := by
  refine ⟨fun s => ⟨rfl, ?_, rfl, ?_, rfl, ?_, rfl, ?_⟩, fun s => ⟨rfl, ?_, rfl, ?_, rfl, ?_, rfl, ?_⟩⟩
  · exact congrArg Host.Outcome.next ((ran_nil _).symm.trans (ran_transfer 1 s []))
  · exact congrArg Host.Outcome.next ((ran_nil _).symm.trans (ran_transfer (-1) s []))
  · refine (next_repeat_eq s.de (transfer_bc_ne_zero_iff 1 s) (transfer_pc 1 s)).trans ?_
    rw [ran_transfer, ran_transfer]
    rfl
  · refine (next_repeat_eq s.de (transfer_bc_ne_zero_iff (-1) s) (transfer_pc (-1) s)).trans ?_
    rw [ran_transfer, ran_transfer]
    rfl
  · refine (congrArg Host.Outcome.next ((ran_nil _).symm.trans (ran_search 1 s []))).trans ?_
    rw [cpBlockFlags_eq_mkF]
    rfl
  · refine (congrArg Host.Outcome.next ((ran_nil _).symm.trans (ran_search (-1) s []))).trans ?_
    rw [cpBlockFlags_eq_mkF]
    rfl
  · refine (next_repeat_eq s.hl (search_repeats_iff 1 s) (search_pc 1 s)).trans ?_
    rw [ran_search, ran_search, cpBlockFlags_eq_mkF]
    rfl
  · refine (next_repeat_eq s.hl (search_repeats_iff (-1) s) (search_pc (-1) s)).trans ?_
    rw [ran_search, ran_search, cpBlockFlags_eq_mkF]
    rfl

end Sys2Proof.Machine
end

section
/-! PROOFS. The flag functions (43_arith8 R250 to R256, 46_rotate_shift R364): `ArithmeticFlags` and
`LogicRotateFlags`. A flag byte put together with OR is brought to the form `mkF`; overflow is read off the sign bits as
numbers. -/

namespace Sys2Proof.Machine

/-! ### Overflow -/

theorem getLsbD_seven (v : Byte) : v.getLsbD 7 = decide (128 ≤ v.toNat) :=
  (BitVec.msb_eq_getLsbD_last v).symm.trans v.msb_eq_decide

/-- A byte as a signed number. -/
theorem toInt_eq_ite (v : Byte) : v.toInt = if 128 ≤ v.toNat then (v.toNat : Int) - 256 else v.toNat := by
  rw [BitVec.toInt_eq_msb_cond, BitVec.msb_eq_decide]
  simp only [decide_eq_true_eq]
  rfl

/-- PV of an addition (R251): operands of one sign and a sum of the other. -/
theorem add8_overflow_eq (a b : Byte) (c : Bool) :
    (a.getLsbD 7 == b.getLsbD 7 && (add8 a b c).1.getLsbD 7 != a.getLsbD 7) =
      decide (a.toInt + b.toInt + c.toNat < -128 ∨ a.toInt + b.toInt + c.toNat > 127) := by
  have sum : (add8 a b c).1.toNat = (a.toNat + b.toNat + c.toNat) % 256 := rfl
  have := c.toNat_le
  have := a.isLt
  have := b.isLt
  rw [Bool.eq_iff_iff]
  simp only [getLsbD_seven, toInt_eq_ite, sum, Bool.and_eq_true, beq_iff_eq, bne_iff_ne, decide_eq_decide,
    decide_eq_true_eq, ne_eq]
  split_ifs <;> omega

theorem sub8_fst_toNat (a b : Byte) (c : Bool) :
    ((sub8 a b c).1.toNat : Int) = ((a.toNat : Int) - b.toNat - c.toNat) % 256 := by
  have := c.toNat_le
  have := a.isLt
  have := b.isLt
  have diff : (sub8 a b c).1.toNat = (256 - c.toNat % 256 + (256 - b.toNat + a.toNat) % 256) % 256 := by
    simp only [sub8, BitVec.toNat_sub, BitVec.toNat_ofNat, Nat.reducePow]
  omega

/-- PV of a subtraction (R252): operands of different signs and a difference of the subtrahend's. -/
theorem sub8_overflow_eq (a b : Byte) (c : Bool) :
    (a.getLsbD 7 != b.getLsbD 7 && (sub8 a b c).1.getLsbD 7 != a.getLsbD 7) =
      decide (a.toInt - b.toInt - c.toNat < -128 ∨ a.toInt - b.toInt - c.toNat > 127) := by
  have diff := sub8_fst_toNat a b c
  have := c.toNat_le
  have := a.isLt
  have := b.isLt
  rw [Bool.eq_iff_iff]
  simp only [getLsbD_seven, toInt_eq_ite, Bool.and_eq_true, bne_iff_ne, decide_eq_decide,
    decide_eq_true_eq, ne_eq]
  split_ifs <;> omega

/-! ### Flag bytes put together with OR -/

theorem h_eq_mkF : (0x10 : Byte) = mkF false false false true false false false false := rfl

theorem n_eq_mkF : (0x02 : Byte) = mkF false false false false false false true false := rfl

theorem low_nibble_eq_iff (r m : Byte) : r &&& 0x0F = m ↔ r.toNat % 16 = m.toNat := by
  rw [← BitVec.toNat_inj, BitVec.toNat_and]
  exact iff_of_eq (congrArg (· = _) (Nat.and_two_pow_sub_one_eq_mod r.toNat 4))

/-- H of INC and DEC (R255, R256): what the low four bits of the result tell. -/
theorem ite_low_nibble_eq_mkF (r m : Byte) :
    (if r &&& 0x0F = m then 0x10 else 0) =
      mkF false false false (decide (r.toNat % 16 = m.toNat)) false false false false := by
  by_cases half : r.toNat % 16 = m.toNat
  · rw [if_pos ((low_nibble_eq_iff r m).2 half), decide_eq_true half]
    rfl
  · rw [if_neg (half ∘ (low_nibble_eq_iff r m).1), decide_eq_false half]
    rfl

/-- PV of INC and DEC (R255, R256): the one result that overflowed. -/
theorem ite_result_eq_mkF (r m : Byte) :
    (if r = m then 0x04 else 0) = mkF false false false false false (r == m) false false := by
  rw [← ite_pv_eq_mkF]
  simp only [beq_iff_eq]

/-- INC flag by flag (R255). -/
theorem inc8_flags_eq_mkF (v f : Byte) :
    (inc8 v f).2 =
      (let r := v + 1
       mkF (r.getLsbD 7) (r == 0) (r.getLsbD 5) (decide (r.toNat % 16 = 0)) (r.getLsbD 3) (r == 0x80) false
         (flagC f)) := by
  rw [inc8, sz53_eq_mkF, and_one_eq_mkF, ite_low_nibble_eq_mkF, ite_result_eq_mkF, mkF_or, mkF_or, mkF_or]
  simp only [Bool.or_false, Bool.false_or]
  rfl

/-- DEC flag by flag (R256). -/
theorem dec8_flags_eq_mkF (v f : Byte) :
    (dec8 v f).2 =
      (let r := v - 1
       mkF (r.getLsbD 7) (r == 0) (r.getLsbD 5) (decide (r.toNat % 16 = 15)) (r.getLsbD 3) (r == 0x7F) true
         (flagC f)) := by
  rw [dec8, sz53_eq_mkF, and_one_eq_mkF, n_eq_mkF, ite_low_nibble_eq_mkF, ite_result_eq_mkF, mkF_or, mkF_or, mkF_or,
    mkF_or]
  simp only [Bool.or_false, Bool.false_or]
  rfl

/-- `sz53p` flag by flag (R250). -/
theorem sz53p_eq_mkF (v : Byte) :
    sz53p v = mkF (v.getLsbD 7) (v == 0) (v.getLsbD 5) false (v.getLsbD 3) (parity v) false false := by
  rw [sz53p, sz53_eq_mkF, ite_pv_eq_mkF, mkF_or]
  simp only [Bool.or_false, Bool.false_or]

/-- `parity` tells an even number of 1 bits (00_scope R9). -/
theorem parity_eq_countP (v : Byte) :
    parity v = decide ((List.range 8).countP (fun k => v.getLsbD k) % 2 = 0) := by
  revert v
  decide

/-- AND flag by flag (R253): H is set. -/
theorem and8_eq (a b : Byte) :
    and8 a b =
      (let r := a &&& b
       (r, mkF (r.getLsbD 7) (r == 0) (r.getLsbD 5) true (r.getLsbD 3) (parity r) false false)) := by
  rw [and8, sz53p_eq_mkF, h_eq_mkF, mkF_or]
  simp only [Bool.or_false, Bool.false_or]

/-! ### Rotates and shifts as arithmetic -/

theorem toNat_bit_seven (v : Byte) : (v.extractLsb' 7 1).toNat = v.toNat / 128 := by
  have := v.isLt
  rw [BitVec.extractLsb'_toNat, Nat.shiftRight_eq_div_pow]
  omega

/-- A shift to the left with the bit `b` shifted in. -/
theorem toNat_shift_left (v : Byte) {b : BitVec 1} {n : Nat} (hb : b.toNat = n) :
    (v.extractLsb' 0 7 ++ b : Byte).toNat = v.toNat * 2 % 256 + n := by
  rw [← hb, BitVec.toNat_append, ← Nat.shiftLeft_add_eq_or_of_lt b.isLt, Nat.shiftLeft_eq, BitVec.extractLsb'_toNat,
    Nat.shiftRight_zero]
  omega

/-- A shift to the right with the bit `b` shifted in. -/
theorem toNat_shift_right (v : Byte) {b : BitVec 1} {n : Nat} (hb : b.toNat = n) :
    (b ++ v.extractLsb' 1 7 : Byte).toNat = v.toNat / 2 + n * 128 := by
  have := v.isLt
  rw [← hb, BitVec.toNat_append, ← Nat.shiftLeft_add_eq_or_of_lt (v.extractLsb' 1 7).isLt, Nat.shiftLeft_eq,
    BitVec.extractLsb'_toNat, Nat.shiftRight_eq_div_pow]
  omega

/-- A rotate or shift (R364) whose result is given as a number. -/
theorem rotResult_of_toNat {r : Byte} {n : Nat} (c : Bool) (h : r.toNat = n) :
    (rotResult r c).1.toNat = n ∧ (rotResult r c).2 = sz53p (BitVec.ofNat 8 n) ||| (if c then 0x01 else 0x00) := by
  subst h
  rw [BitVec.ofNat_toNat, BitVec.setWidth_eq]
  exact ⟨rfl, rfl⟩

/-! ### The statements -/

/-- Settles O10: sums and differences as numbers, overflow by the sign bits, and INC and DEC flag by flag. -/
theorem arithmeticFlags : Obligations.ArithmeticFlags := by
  refine ⟨fun a b c => ?_, fun a b c => ?_, fun _ _ => rfl, fun v f => ⟨rfl, inc8_flags_eq_mkF v f⟩,
    fun v f => ⟨?_, dec8_flags_eq_mkF v f⟩⟩
  · exact ⟨rfl, flagS_mkF .., flagZ_mkF .., flagY_mkF .., flagX_mkF .., flagH_mkF .., flagPV_mkF ..,
      (flagPV_mkF ..).trans (add8_overflow_eq a b c), flagN_mkF .., flagC_mkF ..⟩
  · refine ⟨sub8_fst_toNat a b c, flagS_mkF .., flagZ_mkF .., flagY_mkF .., flagX_mkF .., (flagH_mkF ..).trans ?_,
      flagPV_mkF .., (flagPV_mkF ..).trans (sub8_overflow_eq a b c), flagN_mkF .., (flagC_mkF ..).trans ?_⟩
    · exact decide_eq_decide.2 (by omega)
    · exact decide_eq_decide.2 (by omega)
  · exact congrArg (· % 256) (Nat.add_comm 255 v.toNat)

/-- Settles O11: the logic operations flag by flag, and each rotate or shift as the number it makes of the byte. -/
theorem logicRotateFlags : Obligations.LogicRotateFlags := by
  refine ⟨sz53_eq_mkF, fun v => ?_, and8_eq, fun a b => ?_, fun a b => ?_, fun o v c => ?_⟩
  · rw [sz53p_eq_mkF, parity_eq_countP]
  · rw [xor8, sz53p_eq_mkF]
  · rw [or8, sz53p_eq_mkF]
  · cases o with
    | rlc => exact rotResult_of_toNat _ (toNat_shift_left v (toNat_bit_seven v))
    | rrc => exact rotResult_of_toNat _ (toNat_shift_right v rfl)
    | rl => exact rotResult_of_toNat _ (toNat_shift_left v (BitVec.toNat_ofBool c))
    | rr => exact rotResult_of_toNat _ (toNat_shift_right v (BitVec.toNat_ofBool c))
    | sla => exact rotResult_of_toNat _ (toNat_shift_left v rfl)
    | sra => exact rotResult_of_toNat _ (toNat_shift_right v (toNat_bit_seven v))
    | sll => exact rotResult_of_toNat _ (toNat_shift_left v rfl)
    | srl => exact rotResult_of_toNat _ (toNat_shift_right v rfl)

end Sys2Proof.Machine
end

section
/-! PROOFS. The accumulator operations, INC and DEC (43_arith8 R257 to R307): `AluRegister`, `AluImmediate`, `AluMemory`
and `IncDec8`. The meaning of each form is said once for all its operations; a statement is then the run that the form's
fetches make (Laws/Ops), updated with what the operation writes. -/

namespace Sys2Proof.Machine

/-! ### One meaning for the eight accumulator operations (R257) -/

section

variable (k : AluOp) (xy : XY) (s : State)

theorem exec_onReg (r : R8) : exec (k.onReg r) s = aluReg k.result r s := by cases k <;> rfl

theorem exec_onHalf (j : Half) : exec (k.onHalf xy j) s = aluHalf k.result xy j s := by cases k <;> rfl

theorem exec_onImm (n : Byte) : exec (k.onImm n) s = aluImm k.result n s := by cases k <;> rfl

theorem exec_onMemHl : exec k.onMemHl s = aluHl k.result s := by cases k <;> rfl

theorem exec_onMemXy (d : Byte) : exec (k.onMemXy xy d) s = aluXy k.result xy d s := by cases k <;> rfl

theorem encode_onReg (r : R8) : encode (k.onReg r) = [0b10#2 ++ k.code ++ r.code] := by cases k <;> rfl

theorem encode_onHalf (j : Half) :
    encode (k.onHalf xy j) = [0b11#2 ++ xy.code ++ 0b11101#5, 0b10#2 ++ k.code ++ 0b10#2 ++ j.code] := by
  cases k <;> rfl

theorem encode_onImm (n : Byte) : encode (k.onImm n) = [0b11#2 ++ k.code ++ 0b110#3, n] := by cases k <;> rfl

theorem encode_onMemHl : encode k.onMemHl = [0b10#2 ++ k.code ++ 0b110#3] := by cases k <;> rfl

theorem encode_onMemXy (d : Byte) :
    encode (k.onMemXy xy d) = [0b11#2 ++ xy.code ++ 0b11101#5, 0b10#2 ++ k.code ++ 0b110#3, d] := by
  cases k <;> rfl

end

/-! ### INC and DEC, for either operation -/

section

variable (op : Byte → Byte → Byte × Byte) (xy : XY) (s : State)

theorem stepReg_eq (r : R8) :
    stepReg op r s =
      .next (setR8 r (op (getR8 s r) s.f).1 { ran s 1 1 (cyc1 s) with f := (op (getR8 s r) s.f).2 }) :=
  next_congr (fun t => setR8 r (op (getR8 s r) s.f).1 { t with f := (op (getR8 s r) s.f).2 }) (fetchOp_ran s)

theorem stepHl_eq :
    stepHl op s =
      (let rf := op (read8 s s.hl) s.f
       .next { ran (write8 s.hl rf.1 s) 1 1 (cyc1 s ++ cycRmw s.hl) with f := rf.2 }) :=
  next_congr (fun t => { t with f := (op (read8 s s.hl) s.f).2 }) (modify_after s 1 1 (cyc1 s) s.hl _)

theorem stepXy_eq (d : Byte) :
    stepXy op xy d s =
      (let w := indexAddr s xy d
       let rf := op (read8 s w) s.f
       .next { ran (write8 w rf.1 s) 3 2 (cycXy s ++ cycRmw w) with f := rf.2, memptr := w }) :=
  next_congr (fun t => { t with f := (op (read8 s (indexAddr s xy d)) s.f).2 }) (indexed_modify xy d _ s)

/-- The upper half (R303, R307): the lower one stays. -/
theorem stepHalf_hi :
    stepHalf op xy .hi s =
      (let rf := op (hiByte (getXy s xy)) s.f
       .next (setXy xy (rf.1 ++ loByte (getXy s xy)) { ran s 2 2 (cyc2 s) with f := rf.2 })) := by
  rw [stepHalf, fetchOp2_ran]
  cases xy <;> rfl

/-- The lower half: no carry passes to the upper one. -/
theorem stepHalf_lo :
    stepHalf op xy .lo s =
      (let rf := op (loByte (getXy s xy)) s.f
       .next (setXy xy (hiByte (getXy s xy) ++ rf.1) { ran s 2 2 (cyc2 s) with f := rf.2 })) := by
  rw [stepHalf, fetchOp2_ran]
  cases xy <;> rfl

end

/-! ### The statements -/

/-- Settles O13: an opcode fetch or two, then the operation on the register or the half. -/
theorem aluRegister : Obligations.AluRegister := by
  refine ⟨fun k r s => ⟨encode_onReg k r, ?_⟩, fun k xy j s => ⟨encode_onHalf k xy j, ?_⟩⟩
  · rw [exec_onReg]
    exact next_congr (aluApply k.result (getR8 s r)) (fetchOp_ran s)
  · rw [exec_onHalf]
    exact next_congr (aluApply k.result (getHalf s xy j)) (fetchOp2_ran s)

/-- Settles O14: an opcode fetch and an operand fetch, then the operation on the operand. -/
theorem aluImmediate : Obligations.AluImmediate := by
  refine fun k n s => ⟨encode_onImm k n, ?_⟩
  rw [exec_onImm]
  exact next_congr (aluApply k.result n) (fetchN_ran s)

/-- Settles O15: the fetches of the form and its read cycle, then the operation on the byte. -/
theorem aluMemory : Obligations.AluMemory := by
  refine ⟨fun k s => ⟨encode_onMemHl k, ?_⟩, fun k xy d s => ⟨encode_onMemXy k xy d, ?_⟩⟩
  · rw [exec_onMemHl]
    exact next_congr (aluApply k.result (read8 s s.hl)) (cycle_after s 1 1 (cyc1 s) s.hl 3)
  · rw [exec_onMemXy]
    exact next_congr (aluApply k.result (read8 s (indexAddr s xy d))) (indexed_cycle xy d s)

/-- Settles O16: each form for both operations, from its fetches and, in memory, its read, modify and write. -/
theorem incDec8 : Obligations.IncDec8 :=
  ⟨fun r s => ⟨stepReg_eq inc8 s r, stepReg_eq dec8 s r⟩,
    fun s => ⟨stepHl_eq inc8 s, stepHl_eq dec8 s⟩,
    fun xy d s => ⟨stepXy_eq inc8 xy s d, stepXy_eq dec8 xy s d⟩,
    fun xy s => ⟨stepHalf_hi inc8 xy s, stepHalf_lo inc8 xy s, stepHalf_hi dec8 xy s, stepHalf_lo dec8 xy s⟩,
    fun _ _ _ _ => ⟨rfl, rfl, rfl, rfl, rfl, rfl, rfl, rfl⟩⟩

end Sys2Proof.Machine
end

section
/-! PROOFS. The accumulator and CPU control group (44_general_control), the rotates of the accumulator and the digit
rotates (R360 to R363, R397, R398 of 46_rotate_shift): `DaaDecimal`, `Accumulator` and `Control`. `DAA` is brought to a
sum or a difference with one adjustment; its decimal meaning is then arithmetic on two digits. -/

namespace Sys2Proof.Machine

/-! ### DAA -/

/-- The two halves of the adjustment of `DAA` (R320) have no bit in common. -/
theorem daa_halves_or_eq_add (p q : Bool) :
    ((if p then 0x06 else 0) ||| (if q then 0x60 else 0) : Byte) =
      (if p then 0x06 else 0x00) + (if q then 0x60 else 0x00) := by
  cases p <;> cases q <;> rfl

theorem daa_halves_toNat (p q : Bool) :
    ((if p then 0x06 else 0x00) + (if q then 0x60 else 0x00) : Byte).toNat =
      6 * p.toNat + 0x60 * q.toNat := by
  cases p <;> cases q <;> rfl

theorem ite_h_eq_mkF (c : Bool) : (if c then 0x10 else 0) = mkF false false false c false false false false := by
  cases c <;> rfl

theorem ite_n_eq_mkF (c : Bool) : (if c then 0x02 else 0) = mkF false false false false false false c false := by
  cases c <;> rfl

theorem ite_c_eq_mkF (c : Bool) : (if c then 0x01 else 0) = mkF false false false false false false false c := by
  cases c <;> rfl

/-- `DAA` (R320) as one addition or subtraction, flag by flag. -/
theorem daa8_eq (a f : Byte) :
    daa8 a f =
      (let adj := (if flagH f || decide (a.toNat % 16 > 9) then 0x06 else 0x00)
          + (if flagC f || decide (a.toNat > 0x99) then 0x60 else 0x00)
       let rf := if flagN f then sub8 a adj false else add8 a adj false
       (rf.1, mkF (rf.1.getLsbD 7) (rf.1 == 0) (rf.1.getLsbD 5) (flagH rf.2) (rf.1.getLsbD 3) (parity rf.1) (flagN f)
         (flagC f || decide (a.toNat > 0x99)))) := by
  simp only [daa8, daa_halves_or_eq_add, sz53p_eq_mkF, ite_h_eq_mkF, ite_n_eq_mkF, ite_c_eq_mkF, mkF_or, Bool.or_false,
    Bool.false_or]

/-- C after `DAA`: it is never cleared. -/
theorem flagC_daa8 (a f : Byte) : flagC (daa8 a f).2 = (flagC f || decide (a.toNat > 0x99)) := by
  rw [daa8_eq]
  exact flagC_mkF ..

/-- `DAA` after an addition, as a number. -/
theorem daa8_fst_toNat_of_add {a f : Byte} (hN : flagN f = false) :
    (daa8 a f).1.toNat =
      (a.toNat + 6 * (flagH f || decide (a.toNat % 16 > 9)).toNat
        + 0x60 * (flagC f || decide (a.toNat > 0x99)).toNat) % 256 := by
  rw [daa8_eq, hN, Nat.add_assoc, ← daa_halves_toNat]
  rfl

/-- `DAA` after a subtraction, as a number. -/
theorem daa8_fst_toNat_of_sub {a f : Byte} (hN : flagN f = true) :
    ((daa8 a f).1.toNat : Int) =
      ((a.toNat : Int) - 6 * (flagH f || decide (a.toNat % 16 > 9)).toNat
        - 0x60 * (flagC f || decide (a.toNat > 0x99)).toNat) % 256 := by
  rw [daa8_eq, hN]
  refine (sub8_fst_toNat ..).trans ?_
  rw [daa_halves_toNat]
  push_cast
  exact congrArg (· % 256) ((Int.sub_zero _).trans (sub_add_eq_sub_sub ..))

section

variable (a b : Byte) (c : Bool)

theorem flagN_add8 : flagN (add8 a b c).2 = false := flagN_mkF ..

theorem flagH_add8 : flagH (add8 a b c).2 = decide (a.toNat % 16 + b.toNat % 16 + c.toNat > 15) := flagH_mkF ..

theorem flagC_add8 : flagC (add8 a b c).2 = decide (a.toNat + b.toNat + c.toNat > 255) := flagC_mkF ..

theorem flagN_sub8 : flagN (sub8 a b c).2 = true := flagN_mkF ..

theorem flagH_sub8 : flagH (sub8 a b c).2 = decide (a.toNat % 16 < b.toNat % 16 + c.toNat) := flagH_mkF ..

theorem flagC_sub8 : flagC (sub8 a b c).2 = decide (a.toNat < b.toNat + c.toNat) := flagC_mkF ..

end

/-- The two decimal digits of a number, a digit in each half of the byte. -/
def decimalByte (n : Nat) : Byte := BitVec.ofNat 8 (n / 10 % 10 * 16 + n % 10)

theorem decimalByte_digits_toNat {p q : Nat} (hp : p < 10) (hq : q < 10) :
    (decimalByte (10 * p + q)).toNat = 16 * p + q := by
  rw [decimalByte, BitVec.toNat_ofNat]
  omega

theorem exists_decimal_digits {n : Nat} (h : n < 100) : ∃ p q, p < 10 ∧ q < 10 ∧ n = 10 * p + q :=
  ⟨n / 10, n % 10, by omega, by omega, by omega⟩

theorem toNat_decide_eq_one {k : Nat} (hk : k ≤ 1) : (decide (k = 1)).toNat = k := by
  interval_cases k <;> rfl

/-- A sum of two digits and a carry is a digit and a carry. -/
theorem exists_digit_carry {p q c : Nat} (hp : p < 10) (hq : q < 10) (hc : c ≤ 1) :
    ∃ k u, k ≤ 1 ∧ u < 10 ∧ p + q + c = u + 10 * k :=
  ⟨(p + q + c) / 10, (p + q + c) % 10, by omega, by omega, by omega⟩

/-- A difference of two digits and a borrow is a digit and a borrow. -/
theorem exists_digit_borrow {p q c : Nat} (hp : p < 10) (hq : q < 10) (hc : c ≤ 1) :
    ∃ k u, k ≤ 1 ∧ u < 10 ∧ p + 10 * k = q + c + u :=
  ⟨1 - (p + 10 - q - c) / 10, (p + 10 - q - c) % 10, by omega, by omega, by omega⟩

/-- `DAA` after the addition of two decimal bytes: the halves of its adjustment are the carries `k` and `j` of the
two digits. -/
theorem daa8_add8_decimal {x y : Nat} (hx : x < 100) (hy : y < 100) (c : Bool) :
    (let rf := add8 (decimalByte x) (decimalByte y) c
     (daa8 rf.1 rf.2).1 = decimalByte ((x + y + c.toNat) % 100) ∧
     flagC (daa8 rf.1 rf.2).2 = decide (x + y + c.toNat > 99)) := by
  obtain ⟨p, q, hp, hq, rfl⟩ := exists_decimal_digits hx
  obtain ⟨p', q', hp', hq', rfl⟩ := exists_decimal_digits hy
  obtain ⟨k, u, hk, hu, units⟩ := exists_digit_carry hq hq' c.toNat_le
  obtain ⟨j, v, hj, hv, tens⟩ := exists_digit_carry hp hp' hk
  have result : (10 * p + q + (10 * p' + q') + c.toNat) % 100 = 10 * v + u := by omega
  have hx := decimalByte_digits_toNat hp hq
  have hy := decimalByte_digits_toNat hp' hq'
  have hN := flagN_add8 (decimalByte (10 * p + q)) (decimalByte (10 * p' + q')) c
  have hH := flagH_add8 (decimalByte (10 * p + q)) (decimalByte (10 * p' + q')) c
  have hC := flagC_add8 (decimalByte (10 * p + q)) (decimalByte (10 * p' + q')) c
  have sum : (add8 (decimalByte (10 * p + q)) (decimalByte (10 * p' + q')) c).1.toNat =
      ((decimalByte (10 * p + q)).toNat + (decimalByte (10 * p' + q')).toNat + c.toNat) % 256 := rfl
  generalize add8 (decimalByte (10 * p + q)) (decimalByte (10 * p' + q')) c = rf at *
  rw [hx, hy] at hH hC sum
  have low : (flagH rf.2 || decide (rf.1.toNat % 16 > 9)) = decide (k = 1) := by
    rw [hH, ← Bool.decide_or, decide_eq_decide]
    omega
  have high : (flagC rf.2 || decide (rf.1.toNat > 0x99)) = decide (j = 1) := by
    rw [hC, ← Bool.decide_or, decide_eq_decide]
    omega
  refine ⟨BitVec.eq_of_toNat_eq ?_, (flagC_daa8 ..).trans (high.trans (decide_eq_decide.2 (by omega)))⟩
  rw [daa8_fst_toNat_of_add hN, low, high, toNat_decide_eq_one hk, toNat_decide_eq_one hj, result,
    decimalByte_digits_toNat hv hu, sum]
  omega

/-- `DAA` after the subtraction of two decimal bytes: the halves of its adjustment are the borrows `k` and `j` of the
two digits. -/
theorem daa8_sub8_decimal {x y : Nat} (hx : x < 100) (hy : y < 100) (c : Bool) :
    (let rf := sub8 (decimalByte x) (decimalByte y) c
     (daa8 rf.1 rf.2).1 = decimalByte ((x + 200 - y - c.toNat) % 100) ∧
     flagC (daa8 rf.1 rf.2).2 = decide (x < y + c.toNat)) := by
  obtain ⟨p, q, hp, hq, rfl⟩ := exists_decimal_digits hx
  obtain ⟨p', q', hp', hq', rfl⟩ := exists_decimal_digits hy
  obtain ⟨k, u, hk, hu, units⟩ := exists_digit_borrow hq hq' c.toNat_le
  obtain ⟨j, v, hj, hv, tens⟩ := exists_digit_borrow hp hp' hk
  have result : (10 * p + q + 200 - (10 * p' + q') - c.toNat) % 100 = 10 * v + u := by omega
  have wrap : ((16 * p + q : Nat) - (16 * p' + q' : Nat) - c.toNat : Int) =
      (16 * v + u + 6 * k + 96 * j : Nat) - 256 * j := by omega
  have hx := decimalByte_digits_toNat hp hq
  have hy := decimalByte_digits_toNat hp' hq'
  have hN := flagN_sub8 (decimalByte (10 * p + q)) (decimalByte (10 * p' + q')) c
  have hH := flagH_sub8 (decimalByte (10 * p + q)) (decimalByte (10 * p' + q')) c
  have hC := flagC_sub8 (decimalByte (10 * p + q)) (decimalByte (10 * p' + q')) c
  have difference := sub8_fst_toNat (decimalByte (10 * p + q)) (decimalByte (10 * p' + q')) c
  generalize sub8 (decimalByte (10 * p + q)) (decimalByte (10 * p' + q')) c = rf at *
  rw [hx, hy] at hH hC difference
  have binary : rf.1.toNat = 16 * v + u + 6 * k + 96 * j := by
    rw [wrap, Int.sub_mul_emod_self_left] at difference
    exact Int.ofNat_inj.1 (difference.trans (Int.emod_eq_of_lt (Int.natCast_nonneg _) (by omega)))
  have low : (flagH rf.2 || decide (rf.1.toNat % 16 > 9)) = decide (k = 1) := by
    rw [hH, ← Bool.decide_or, decide_eq_decide]
    omega
  have high : (flagC rf.2 || decide (rf.1.toNat > 0x99)) = decide (j = 1) := by
    rw [hC, ← Bool.decide_or, decide_eq_decide]
    omega
  refine ⟨BitVec.eq_of_toNat_eq ?_, (flagC_daa8 ..).trans (high.trans (decide_eq_decide.2 (by omega)))⟩
  have cancel : ((16 * v + u + 6 * k + 96 * j : Nat) : Int) - 6 * k - 96 * j = (16 * v + u : Nat) := by omega
  have adjusted := daa8_fst_toNat_of_sub (a := rf.1) hN
  rw [low, high, toNat_decide_eq_one hk, toNat_decide_eq_one hj, binary, cancel] at adjusted
  rw [result, decimalByte_digits_toNat hv hu]
  exact Int.ofNat_inj.1 (adjusted.trans (Int.emod_eq_of_lt (Int.natCast_nonneg _) (by omega)))

/-- Settles O12: digit by digit, the adjustment makes up for the carries of the half bytes. -/
theorem daaDecimal : Obligations.DaaDecimal :=
  fun x y c => ⟨daa8_add8_decimal x.isLt y.isLt c, daa8_sub8_decimal x.isLt y.isLt c⟩

/-! ### Shifts and digits of a byte -/

theorem append_carry_eq_shiftLeft (v : Byte) (c : Bool) :
    v.extractLsb' 0 7 ++ BitVec.ofBool c = v <<< 1 ||| (if c then 1 else 0) := by
  revert v
  cases c <;> decide

theorem carry_append_eq_ushiftRight (v : Byte) (c : Bool) :
    BitVec.ofBool c ++ v.extractLsb' 1 7 = v >>> 1 ||| (if c then 0x80 else 0) := by
  revert v
  cases c <;> decide

theorem rotateLeft_eq_shifts (v : Byte) : v.extractLsb' 0 7 ++ v.extractLsb' 7 1 = v <<< 1 ||| v >>> 7 := by
  revert v
  decide

theorem rotateRight_eq_shifts (v : Byte) : v.extractLsb' 0 1 ++ v.extractLsb' 1 7 = v >>> 1 ||| v <<< 7 := by
  revert v
  decide

theorem append_digits (x y : BitVec 4) : (x ++ y : Byte) = x.setWidth 8 <<< 4 ||| y.setWidth 8 := by
  revert x y
  decide

theorem low_digit_moved_up (v : Byte) : (v.extractLsb' 0 4).setWidth 8 <<< 4 = v <<< 4 := by
  revert v
  decide

theorem low_digit_kept (v : Byte) : (v.extractLsb' 0 4).setWidth 8 = v &&& 0x0F := by
  revert v
  decide

theorem high_digit_kept (v : Byte) : (v.extractLsb' 4 4).setWidth 8 <<< 4 = v &&& 0xF0 := by
  revert v
  decide

theorem high_digit_moved_down (v : Byte) : (v.extractLsb' 4 4).setWidth 8 = v >>> 4 := by
  revert v
  decide

/-! ### The digit rotates -/

/-- The flags of `RLD` and `RRD` (R397, R398) flag by flag. -/
theorem keepCFlags_eq_mkF (f v : Byte) :
    keepCFlags f v = mkF (v.getLsbD 7) (v == 0) (v.getLsbD 5) false (v.getLsbD 3) (parity v) false (flagC f) := by
  rw [keepCFlags, and_one_eq_mkF, sz53p_eq_mkF, mkF_or]
  simp only [Bool.or_false, Bool.false_or]

/-- `RLD` and `RRD`: a read, four T-states, a write, the flags of the new A and MEMPTR. -/
theorem rotDigits_eq (m a : Byte) (s : State) :
    rotDigits m a s =
      .next { ran (write8 s.hl m s) 2 2 (cyc2 s ++ [.mem s.hl 3, .idle s.hl 4, .mem s.hl 3]) with
        a := a
        f := mkF (a.getLsbD 7) (a == 0) (a.getLsbD 5) false (a.getLsbD 3) (parity a) false (flagC s.f)
        memptr := s.hl + 1 } := by
  rw [rotDigits, fetchOp2_ran, cycle_after, internal_ran, ran_more, store8_after, keepCFlags_eq_mkF]
  simp only [List.append_assoc]
  rfl

/-! ### The statements -/

/-- Settles O22: a fetch or two and the fields written; the bits of the model's results as shifts and masks. -/
theorem accumulator : Obligations.Accumulator := by
  refine ⟨fun u s => ⟨rfl, ?_, rfl, ?_, rfl, ?_, rfl, rfl, rfl, rfl⟩, fun s => ⟨rfl, ?_, rfl, ?_, rfl, ?_, rfl, ?_⟩,
    fun s => ⟨rfl, ?_, rfl, ?_⟩⟩
  · change execDaa s = _
    rw [execDaa, daa8_eq]
    rfl
  · change execCpl s = _
    rw [execCpl, ← BitVec.xor_allOnes]
    rfl
  · exact next_congr (fun t => { t with a := (sub8 0 s.a false).1, f := (sub8 0 s.a false).2 }) (fetchOp2_ran s)
  · change execRlca s = _
    rw [execRlca, rotateLeft_eq_shifts]
    rfl
  · change execRla s = _
    rw [execRla, append_carry_eq_shiftLeft]
    rfl
  · change execRrca s = _
    rw [execRrca, rotateRight_eq_shifts]
    rfl
  · change execRra s = _
    rw [execRra, carry_append_eq_ushiftRight]
    rfl
  · change execRld s = _
    rw [execRld, rotDigits_eq, append_digits, append_digits, low_digit_moved_up, low_digit_kept, high_digit_kept,
      high_digit_moved_down]
    rfl
  · change execRrd s = _
    rw [execRrd, rotDigits_eq, append_digits, append_digits, low_digit_moved_up, high_digit_moved_down,
      high_digit_kept, low_digit_kept]

/-- Settles O23: every form is one fetch or two and the fields it writes; no ignored bit is read. -/
theorem control : Obligations.Control := by
  refine ⟨fun s => ⟨rfl, rfl, rfl, rfl, rfl, rfl, rfl, rfl⟩, fun u v x y z z' s => ?_, fun xy s => ⟨rfl, rfl⟩⟩
  have noOperation : (.next (fetchOp2 s) : Result) = .next (ran s 2 2 (cyc2 s)) := congrArg _ (fetchOp2_ran s)
  have setMode (mode : IntMode) :
      (.next { fetchOp2 s with im := mode } : Result) = .next { ran s 2 2 (cyc2 s) with im := mode } :=
    next_congr (fun t => { t with im := mode }) (fetchOp2_ran s)
  exact ⟨rfl, setMode .im0, rfl, setMode .im1, rfl, setMode .im2, rfl, noOperation, rfl, noOperation, rfl, noOperation,
    rfl, noOperation, rfl, noOperation⟩

end Sys2Proof.Machine
end

section
/-! PROOFS. The 16-bit arithmetic group (45_arith16 R340 to R347): `Arith16`. Each operation is a sum or a difference of
words with its flags, overflow told by the signed numbers; a form is its fetches and its T-states at `ir`, then what the
operation writes. -/

namespace Sys2Proof.Machine

/-! ### Signed overflow -/

theorem getLsbD_fifteen (v : Word) : v.getLsbD 15 = decide (v.toInt < 0) :=
  (BitVec.msb_eq_getLsbD_last v).symm.trans BitVec.msb_eq_toInt

theorem word_toInt_bounds (v : Word) : -32768 ≤ v.toInt ∧ v.toInt < 32768 := ⟨v.le_toInt, v.toInt_lt⟩

/-- The sign of a number wrapped to 16 bits: the number's own, unless it leaves 16 bits. -/
theorem bmod_neg_iff {n : Int} (lo : -65536 ≤ n) (hi : n < 65536) :
    n.bmod 65536 < 0 ↔ -32768 ≤ n ∧ n < 0 ∨ 32767 < n := by
  rw [Int.bmod_def]
  omega

section

variable (a b : Word) (c : Bool)

theorem toInt_carry : (BitVec.ofNat 16 c.toNat).toInt = c.toNat := by
  cases c <;> rfl

/-- A sum with carry as a signed number wraps to 16 bits. -/
theorem toInt_add_carry :
    (a + b + BitVec.ofNat 16 c.toNat).toInt = (a.toInt + b.toInt + c.toNat).bmod 65536 := by
  rw [BitVec.toInt_add, BitVec.toInt_add, toInt_carry, Int.bmod_add_bmod]

/-- A difference with borrow as a signed number wraps to 16 bits. -/
theorem toInt_sub_borrow :
    (a - b - BitVec.ofNat 16 c.toNat).toInt = (a.toInt - b.toInt - c.toNat).bmod 65536 := by
  rw [BitVec.toInt_sub, BitVec.toInt_sub, toInt_carry, Int.bmod_sub_bmod]

/-- PV of `ADC HL,ss` (R341): operands of one sign and a sum of the other. -/
theorem add_carry_overflow_eq :
    (a.getLsbD 15 == b.getLsbD 15 && (a + b + BitVec.ofNat 16 c.toNat).getLsbD 15 != a.getLsbD 15) =
      decide (a.toInt + b.toInt + c.toNat < -32768 ∨ a.toInt + b.toInt + c.toNat > 32767) := by
  have := c.toNat_le
  have := word_toInt_bounds a
  have := word_toInt_bounds b
  have sign := bmod_neg_iff (n := a.toInt + b.toInt + c.toNat) (by omega) (by omega)
  rw [Bool.eq_iff_iff]
  simp only [getLsbD_fifteen, toInt_add_carry, sign, Bool.and_eq_true, beq_iff_eq, bne_iff_ne, decide_eq_decide,
    decide_eq_true_eq, ne_eq]
  omega

/-- PV of `SBC HL,ss` (R342): operands of different signs and a difference of the subtrahend's. -/
theorem sub_borrow_overflow_eq :
    (a.getLsbD 15 != b.getLsbD 15 && (a - b - BitVec.ofNat 16 c.toNat).getLsbD 15 != a.getLsbD 15) =
      decide (a.toInt - b.toInt - c.toNat < -32768 ∨ a.toInt - b.toInt - c.toNat > 32767) := by
  have := c.toNat_le
  have := word_toInt_bounds a
  have := word_toInt_bounds b
  have sign := bmod_neg_iff (n := a.toInt - b.toInt - c.toNat) (by omega) (by omega)
  rw [Bool.eq_iff_iff]
  simp only [getLsbD_fifteen, toInt_sub_borrow, sign, Bool.and_eq_true, bne_iff_ne, decide_eq_decide,
    decide_eq_true_eq, ne_eq]
  omega

/-! ### The operations as sums and differences of words -/

/-- `ADC HL,ss` flag by flag (R341), PV the signed overflow. -/
theorem adc16_eq :
    adc16 a b c =
      (let r := a + b + BitVec.ofNat 16 c.toNat
       (r, mkF (r.getLsbD 15) (r == 0) (r.getLsbD 13) (decide (a.toNat % 4096 + b.toNat % 4096 + c.toNat > 4095))
         (r.getLsbD 11) (decide (a.toInt + b.toInt + c.toNat < -32768 ∨ a.toInt + b.toInt + c.toNat > 32767)) false
         (decide (a.toNat + b.toNat + c.toNat > 65535)))) := by
  have sum : BitVec.ofNat 16 (a.toNat + b.toNat + c.toNat) = a + b + BitVec.ofNat 16 c.toNat := BitVec.ofNat_add ..
  simp only [adc16, sum, add_carry_overflow_eq]

/-- `SBC HL,ss` flag by flag (R342), PV the signed overflow. -/
theorem sbc16_eq :
    sbc16 a b c =
      (let r := a - b - BitVec.ofNat 16 c.toNat
       (r, mkF (r.getLsbD 15) (r == 0) (r.getLsbD 13) (decide (a.toNat % 4096 < b.toNat % 4096 + c.toNat))
         (r.getLsbD 11) (decide (a.toInt - b.toInt - c.toNat < -32768 ∨ a.toInt - b.toInt - c.toNat > 32767)) true
         (decide (a.toNat < b.toNat + c.toNat)))) := by
  simp only [sbc16, sub_borrow_overflow_eq]

end

/-! ### The T-states at `ir` -/

/-- T-states at the `ir` address the fetches left (70_reset R612). -/
theorem internalIr_after (s : State) (l m : Nat) (cs : List Cycle) (k : Nat) :
    internalIr k (ran s l m cs) = ran s l m (cs ++ [.idle (irAfter s m) k]) := by
  rw [internalIr, internal_ran, ran_more]
  rfl

theorem internalIr_fetchOp (s : State) (k : Nat) :
    internalIr k (fetchOp s) = ran s 1 1 (cyc1 s ++ [.idle (irAfter s 1) k]) :=
  internalIr_after s 1 1 (cyc1 s) k

theorem internalIr_fetchOp2 (s : State) (k : Nat) :
    internalIr k (fetchOp2 s) = ran s 2 2 (cyc2 s ++ [.idle (irAfter s 2) k]) := by
  rw [fetchOp2_ran, internalIr_after]

/-! ### The statement -/

/-- Settles O24: each form is its fetches and T-states at `ir`, then the sum or the difference with its flags. -/
theorem arith16 : Obligations.Arith16 := by
  refine ⟨fun ss s => ⟨rfl, ?_, rfl, ?_, rfl, ?_, rfl, ?_, rfl, ?_⟩, fun xy pp s => ⟨rfl, ?_, rfl, ?_, rfl, ?_⟩⟩
  · change execAddHlSs ss s = _
    rw [execAddHlSs, internalIr_fetchOp]
    rfl
  · change execAdcHlSs ss s = _
    rw [execAdcHlSs, internalIr_fetchOp2, adc16_eq]
    cases flagC s.f <;> rfl
  · change execSbcHlSs ss s = _
    rw [execSbcHlSs, internalIr_fetchOp2, sbc16_eq]
    cases flagC s.f <;> rfl
  · exact next_congr (setDd ss (getDd s ss + 1)) (internalIr_fetchOp s 2)
  · exact next_congr (setDd ss (getDd s ss - 1)) (internalIr_fetchOp s 2)
  · change execAddXyPp xy pp s = _
    rw [execAddXyPp, internalIr_fetchOp2]
    rfl
  · exact next_congr (setXy xy (getXy s xy + 1)) (internalIr_fetchOp2 s 2)
  · exact next_congr (setXy xy (getXy s xy - 1)) (internalIr_fetchOp2 s 2)

end Sys2Proof.Machine
end

section
/-! PROOFS. The rotates and shifts on registers and memory (46_rotate_shift R364 to R396): `RotateRegister`,
`RotateMemory`, `RotateIndexed` and `RotateIndexedCopy`. The meaning and the encoding of each form are said once for its
eight operations; a statement is then the run that the form's fetches and accesses make (Laws/Ops), updated with what
the operation writes. -/

namespace Sys2Proof.Machine

/-! ### One meaning and one encoding for the eight operations (R364) -/

namespace RotOp

variable (k : RotOp) (xy : XY) (d : Byte) (r : R8) (s : State)

theorem exec_onReg : exec (k.onReg r) s = rotReg k.result r s := by cases k <;> rfl

theorem exec_onMemHl : exec k.onMemHl s = rotHl k.result s := by cases k <;> rfl

theorem exec_onMemXy : exec (k.onMemXy xy d) s = rotXy k.result xy d s := by cases k <;> rfl

theorem exec_onMemXyR : exec (k.onMemXyR xy d r) s = rotXyR k.result xy d r s := by cases k <;> rfl

theorem encode_onReg : encode (k.onReg r) = [0xCB, 0b00#2 ++ k.code ++ r.code] := by cases k <;> rfl

theorem encode_onMemHl : encode k.onMemHl = [0xCB, 0b00#2 ++ k.code ++ 0b110#3] := by cases k <;> rfl

theorem encode_onMemXy :
    encode (k.onMemXy xy d) = [0b11#2 ++ xy.code ++ 0b11101#5, 0xCB, d, 0b00#2 ++ k.code ++ 0b110#3] := by
  cases k <;> rfl

theorem encode_onMemXyR :
    encode (k.onMemXyR xy d r) = [0b11#2 ++ xy.code ++ 0b11101#5, 0xCB, d, 0b00#2 ++ k.code ++ r.code] := by
  cases k <;> rfl

end RotOp

/-! ### The forms as runs, for any operation -/

section

variable (op : Byte → Bool → Byte × Byte) (xy : XY) (d : Byte) (r : R8) (s : State)

theorem rotReg_eq :
    rotReg op r s =
      (let rf := op (getR8 s r) (flagC s.f)
       .next (setR8 r rf.1 { ran s 2 2 (cyc2 s) with f := rf.2 })) := by
  rw [rotReg, fetchOp2_ran]

theorem rotHl_eq :
    rotHl op s =
      (let rf := op (read8 s s.hl) (flagC s.f)
       .next { ran (write8 s.hl rf.1 s) 2 2 (cyc2 s ++ cycRmw s.hl) with f := rf.2 }) := by
  rw [rotHl, fetchOp2_ran, modify_after]

/-- Both indexed forms: memory, F and MEMPTR; a register copy comes on top. -/
theorem rotIndexed_eq :
    rotIndexed op xy d s =
      (let w := indexAddr s xy d
       let rf := op (read8 s w) (flagC s.f)
       { ran (write8 w rf.1 s) 4 2 (cycXy4 s ++ cycRmw w) with f := rf.2, memptr := w }) := by
  rw [rotIndexed, indexed4_modify]

end

/-! ### The statements -/

/-- Settles O25: two opcode fetches, then the operation on the register. -/
theorem rotateRegister : Obligations.RotateRegister :=
  fun k r s => ⟨k.encode_onReg r, (k.exec_onReg r s).trans (rotReg_eq k.result r s)⟩

/-- Settles O26: two opcode fetches, then the read, modify and write of the byte at HL. -/
theorem rotateMemory : Obligations.RotateMemory :=
  fun k s => ⟨k.encode_onMemHl, (k.exec_onMemHl s).trans (rotHl_eq k.result s)⟩

/-- Settles O27: the four fetches of the form, then the read, modify and write of the indexed byte. -/
theorem rotateIndexed : Obligations.RotateIndexed :=
  fun k xy d s => ⟨k.encode_onMemXy xy d,
    (k.exec_onMemXy xy d s).trans (congrArg Host.Outcome.next (rotIndexed_eq k.result xy d s))⟩

/-- Settles O28: the indexed form, and on top of it the register takes the result, which the operation gives from the
byte read and not from what memory holds afterwards. -/
theorem rotateIndexedCopy : Obligations.RotateIndexedCopy :=
  fun k xy d r s => ⟨k.encode_onMemXyR xy d r,
    (k.exec_onMemXyR xy d r s).trans (next_congr (setR8 r (k.result (read8 s (indexAddr s xy d)) (flagC s.f)).1)
      (rotIndexed_eq k.result xy d s))⟩

end Sys2Proof.Machine
end

section
/-! PROOFS. The bit test, set and reset group (47_bit R400 to R410): `BitSetReset`. The flags of `BIT` are those of one
digit of the byte as a number; SET and RES share their forms, so each form is brought to a run once, for any operation
on a byte and a bit number. -/

namespace Sys2Proof.Machine

/-! ### The flags of BIT -/

/-- A bit of a byte is a binary digit of its number. -/
theorem getLsbD_eq_decide_digit (v : Byte) (n : Nat) : v.getLsbD n = decide (v.toNat / 2 ^ n % 2 = 1) := by
  rw [← BitVec.testBit_toNat, Nat.testBit_eq_decide_div_mod_eq]

/-- The flags of `BIT` (R400 to R402) with the bit as a digit: Z and PV tell 0, S tells a 1 in bit 7. -/
theorem bitFlags_eq (f v : Byte) (k : BitVec 3) (yx : Byte) :
    bitFlags f v k yx =
      (let t := v.toNat / 2 ^ k.toNat % 2
       mkF (decide (k = 7 ∧ t = 1)) (decide (t = 0)) (yx.getLsbD 5) true (yx.getLsbD 3) (decide (t = 0)) false
         (flagC f)) := by
  have clear (n : Nat) : (!decide (n % 2 = 1)) = decide (n % 2 = 0) := by
    simp only [← decide_not, Nat.mod_two_not_eq_one]
  simp only [bitFlags, getLsbD_eq_decide_digit v k.toNat, clear, beq_eq_decide, Bool.decide_and]

/-! ### The forms as runs -/

section

variable (k : BitVec 3) (xy : XY) (d : Byte) (s : State)

/-- The read of a byte that is tested and the T-state that follows it. -/
theorem testCycles_after (l m : Nat) (cs : List Cycle) (a : Word) :
    cycle a 1 (cycle a 3 (ran s l m cs)) = ran s l m (cs ++ [.mem a 3, .idle a 1]) := by
  rw [cycle_after, cycle1_ran, ran_more, List.append_assoc]
  rfl

/-- The four fetches of an indexed form, then the test of its byte. -/
theorem indexed4_testCycles :
    cycle (indexAddr s xy d) 1 (cycle (indexAddr s xy d) 3 (indexed4 xy d s)) =
      { ran s 4 2 (cycXy4 s ++ [.mem (indexAddr s xy d) 3, .idle (indexAddr s xy d) 1]) with
        memptr := indexAddr s xy d } := by
  rw [indexed4_ran]
  exact testCycles_after { s with memptr := indexAddr s xy d } 4 2 (cycXy4 s) _

theorem execBitR_eq (r : R8) :
    execBitR k r s =
      .next { ran s 2 2 (cyc2 s) with f := bitFlags s.f (getR8 s r) k (getR8 s r) } := by
  rw [execBitR, fetchOp2_ran]

theorem execBitMemHl_eq :
    execBitMemHl k s =
      .next { ran s 2 2 (cyc2 s ++ [.mem s.hl 3, .idle s.hl 1]) with
        f := bitFlags s.f (read8 s s.hl) k (hiByte s.memptr) } := by
  rw [execBitMemHl, fetchOp2_ran, testCycles_after]

theorem execBitMemXy_eq (z : BitVec 3) :
    execBitMemXy xy k d z s =
      (let w := indexAddr s xy d
       .next { ran s 4 2 (cycXy4 s ++ [.mem w 3, .idle w 1]) with
         f := bitFlags s.f (read8 s w) k (hiByte w), memptr := w }) := by
  rw [execBitMemXy, indexed4_testCycles]

variable (op : Byte → BitVec 3 → Byte)

theorem bitReg_eq (r : R8) :
    bitReg op k r s = .next (setR8 r (op (getR8 s r) k) (ran s 2 2 (cyc2 s))) := by
  rw [bitReg, fetchOp2_ran]

theorem bitHl_eq :
    bitHl op k s = .next (ran (write8 s.hl (op (read8 s s.hl) k) s) 2 2 (cyc2 s ++ cycRmw s.hl)) := by
  rw [bitHl, fetchOp2_ran, modify_after]

theorem bitIndexed_eq :
    bitIndexed op xy k d s =
      (let w := indexAddr s xy d
       { ran (write8 w (op (read8 s w) k) s) 4 2 (cycXy4 s ++ cycRmw w) with memptr := w }) := by
  rw [bitIndexed, indexed4_modify]

/-- The register of a copy form takes the result computed from the byte read, not what memory holds afterwards. -/
theorem bitXyR_eq (r : R8) :
    bitXyR op xy k d r s =
      (let w := indexAddr s xy d
       let v := op (read8 s w) k
       .next (setR8 r v { ran (write8 w v s) 4 2 (cycXy4 s ++ cycRmw w) with memptr := w })) := by
  rw [bitXyR, bitIndexed_eq]

end

/-! ### The statement -/

/-- Settles O29: each form is its fetches and accesses; `BIT` then writes its flags, SET and RES the byte with one bit
set or reset. -/
theorem bitSetReset : Obligations.BitSetReset := by
  refine ⟨fun k r s => ⟨rfl, ?_, rfl, bitReg_eq k s setBit8 r, rfl, bitReg_eq k s resBit8 r⟩,
    fun k s => ⟨rfl, ?_, rfl, bitHl_eq k s setBit8, rfl, bitHl_eq k s resBit8⟩,
    fun xy k z d r s => ⟨rfl, ?_,
      rfl, congrArg Host.Outcome.next (bitIndexed_eq k xy d s setBit8), rfl, bitXyR_eq k xy d s setBit8 r,
      rfl, congrArg Host.Outcome.next (bitIndexed_eq k xy d s resBit8), rfl, bitXyR_eq k xy d s resBit8 r⟩⟩
  · change execBitR k r s = _
    rw [execBitR_eq, bitFlags_eq]
  · change execBitMemHl k s = _
    rw [execBitMemHl_eq, bitFlags_eq]
  · change execBitMemXy xy k d z s = _
    simp only [execBitMemXy_eq, bitFlags_eq]
    rfl

end Sys2Proof.Machine
end

section
/-! PROOFS. One step (60_exceptions R500 to R522): `StepPriority`, `StepRunsDecoded`, `InterruptResponses`, `NoTrap`,
`Coordinator`, `InterruptState` and `EndedStays`. What each of the four things a step can do is, which of them it does,
and what the coordinator did before, each said once. -/

namespace Sys2Proof.Machine

/-! ### Which of the four things a step does (R504, R506) -/

theorem intReady_iff (s : State) :
    intReady s = true ↔ s.intState = .pending ∧ s.iff1 = true ∧
      (s.cfg.intHold = none ∨ ∃ n, s.cfg.intHold = some n ∧ s.frameT < s.cfg.intOffset + n) := by
  have window : holdOpen s.cfg s.frameT = true ↔
      s.cfg.intHold = none ∨ ∃ n, s.cfg.intHold = some n ∧ s.frameT < s.cfg.intOffset + n := by
    unfold holdOpen
    cases s.cfg.intHold <;> simp
  rw [intReady, Bool.and_eq_true, Bool.and_eq_true, beq_iff_eq, window, and_assoc]

theorem stepKind_of_nmi {s : State} (hi : s.inhibit = false) (hn : s.nmiPending = true) : stepKind s = .nmi := by
  simp [stepKind, hi, hn]

theorem stepKind_of_int {s : State} (hi : s.inhibit = false) (hn : s.nmiPending = false) (hr : intReady s = true) :
    stepKind s = .int := by
  simp [stepKind, hi, hn, hr]

/-- Neither interrupt is answered. -/
theorem stepKind_of_no_response {s : State}
    (h : s.inhibit = true ∨ s.nmiPending = false ∧ intReady s = false) :
    stepKind s = if s.halted = true then .haltedCycle else .instruction := by
  rcases h with hi | ⟨hn, hr⟩
  · simp [stepKind, hi]
  · simp [stepKind, hn, hr]

theorem stepKind_of_ended {s : State} (h : s.ended) : stepKind s = .haltedCycle := by
  obtain ⟨hh, hf, hn⟩ := h
  have hr : intReady s = false := by simp [intReady, hf]
  rw [stepKind_of_no_response (.inr ⟨hn, hr⟩), if_pos hh]

/-! ### Each of the four things -/

section

variable {s : State}

theorem cpuStep_nmi (h : stepKind s = .nmi) : cpuStep s = .next (nmiResponse { s with inhibit := false }) := by
  rw [cpuStep, h]

theorem cpuStep_int (h : stepKind s = .int) : cpuStep s = intResponse { s with inhibit := false } := by
  rw [cpuStep, h]

theorem cpuStep_haltedCycle (h : stepKind s = .haltedCycle) :
    cpuStep s = .next { s with
      inhibit := false, r := refreshed s.r 1, frameT := timeAfter s.cfg s.paging s.frameT [.mem s.pc 4] } := by
  rw [cpuStep, h]
  rfl

/-- The instruction the four bytes at PC decode to; there always is one (30_encoding R127). -/
theorem cpuStep_instruction (h : stepKind s = .instruction) :
    ∃ i, i.WellFormed = true ∧ decode (fetchWindow s) = .ok (i, (fetchWindow s).drop i.length) ∧
      cpuStep s = exec i { s with inhibit := false } := by
  obtain ⟨i, decoded, ⟨wf, -⟩, -⟩ := decodeTotal (read8 s s.pc) (read8 s (s.pc + 1)) (read8 s (s.pc + 2))
    (read8 s (s.pc + 3))
  have window : decode (fetchWindow { s with inhibit := false }) = .ok (i, (fetchWindow s).drop i.length) := decoded
  refine ⟨i, wf, decoded, ?_⟩
  rw [cpuStep, h]
  simp only [runInstr, window]

end

/-- Settles O38: the priority is the order of the checks, and each of the four things is what the statement says. -/
theorem stepPriority : Obligations.StepPriority := by
  intro s
  refine ⟨fun ⟨hi, hn⟩ => cpuStep_nmi (stepKind_of_nmi hi hn),
    fun ⟨hi, hn, accepts⟩ => cpuStep_int (stepKind_of_int hi hn ((intReady_iff s).2 accepts)), fun h => ?_⟩
  rw [← intReady_iff, Bool.not_eq_true] at h
  have kind := stepKind_of_no_response h
  refine ⟨fun hh => cpuStep_haltedCycle (by rw [kind, if_pos hh]), fun hh => cpuStep_instruction ?_⟩
  rw [kind, hh]
  rfl

/-! ### The coordinator (R520 to R522) -/

theorem raiseInt_eq (s : State) :
    raiseInt s = { s with intState :=
      if s.intState = .idle ∧ s.cfg.intOffset ≤ s.frameT then .pending else s.intState } := by
  unfold raiseInt
  split <;> rfl

theorem endFrame_eq (s : State) :
    endFrame s = { s with
      intState := if s.intState = .idle then .pending else s.intState
      frameT := s.frameT - frameTstates s.cfg.model } := by
  unfold endFrame raiseLate
  split <;> rfl

theorem coordinate_single {s : State} (h : s.drive = .single) : coordinate s = s := by
  rw [coordinate, h]

theorem frameOver_iff (s : State) : frameOver s = true ↔ frameTstates s.cfg.model ≤ s.frameT := decide_eq_true_iff

theorem coordinate_within {s : State} (h : s.drive = .frames) (ht : s.frameT < frameTstates s.cfg.model) :
    coordinate s = raiseInt s := by
  rw [coordinate, h]
  exact congrArg raiseInt (if_neg (mt (frameOver_iff s).1 (Nat.not_le.2 ht)))

theorem coordinate_over {s : State} (h : s.drive = .frames) (ht : frameTstates s.cfg.model ≤ s.frameT) :
    coordinate s = raiseInt (startFrame (endFrame s)) := by
  rw [coordinate, h]
  exact congrArg raiseInt (if_pos ((frameOver_iff s).2 ht))

/-- `s` with what the coordinator writes, the request, the time and the log, of `u`. -/
def State.withFrame (s u : State) : State := { s with intState := u.intState, frameT := u.frameT, log := u.log }

/-- The coordinator changes the request, the time and the log only. -/
theorem coordinate_eq (s : State) : coordinate s = s.withFrame (coordinate s) := by
  cases hd : s.drive with
  | single =>
    rw [coordinate_single hd]
    rfl
  | frames =>
    by_cases ht : frameTstates s.cfg.model ≤ s.frameT
    · rw [coordinate_over hd ht, raiseInt_eq, startFrame, endFrame_eq]
      rfl
    · rw [coordinate_within hd (Nat.not_le.1 ht), raiseInt_eq]
      rfl

theorem fetchWindow_coordinate (s : State) : fetchWindow (coordinate s) = fetchWindow s := by
  rw [coordinate_eq]
  rfl

/-- Settles O37: `cpuStep_instruction`, and the coordinator changes no byte. -/
theorem stepRunsDecoded : Obligations.StepRunsDecoded := by
  intro s i rest kind decoded _
  obtain ⟨j, -, decoded', run⟩ := cpuStep_instruction kind
  cases decoded'.symm.trans decoded
  exact ⟨run, rfl, fetchWindow_coordinate s⟩

/-- Settles O41, by what the raise check and the end of a frame write. -/
theorem coordinator : Obligations.Coordinator := by
  refine fun s => ⟨coordinate_single, fun hd ht => ?_, fun hd ht => ?_, fun fuel hd ht => ?_⟩
  · rw [coordinate_within hd ht, raiseInt_eq]
  · rw [coordinate_over hd ht, raiseInt_eq, startFrame, endFrame_eq]
    simp only [true_and]
  · have loop : frameLoop (fuel + 1) s = _ := if_neg (mt (frameOver_iff s).1 (Nat.not_le.2 ht))
    rw [← coordinate_within hd ht] at loop
    exact loop

/-! ### The responses (R507 to R511) -/

theorem write8_withControl (a : Word) (v : Byte) (s u : State) :
    write8 a v (s.withControl u) = (write8 a v s).withControl u := by
  unfold write8
  rw [show pageAt (s.withControl u) a = pageAt s a from rfl]
  cases pageAt s a <;> rfl

theorem pushed16_eq (v : Word) (s : State) :
    pushed16 v s = { s with sp := s.sp - 2, ram := (pushed16 v s).ram } := by
  unfold pushed16
  rw [write8_eq, write8_eq (s.sp - 1)]
  rfl

/-- The bytes of a push do not depend on R and the interrupt state. -/
theorem pushed16_withControl_ram (v : Word) (s u : State) :
    (pushed16 v (s.withControl u)).ram = (pushed16 v s).ram := by
  unfold pushed16
  rw [write8_withControl, write8_withControl]
  rfl

/-- The RST opcodes by their fields (30_encoding R112). -/
theorem rstByte_iff (b : Byte) : b &&& 0xC7 = 0xC7 ↔ b.toNat / 64 = 3 ∧ b.toNat % 8 = 7 := by
  revert b
  decide

/-- The address of an RST opcode (R508). -/
theorem rstByte_target (b : Byte) : (b &&& 0x38).setWidth 16 = BitVec.ofNat 16 (b.toNat / 8 % 8 * 8) := by
  revert b
  decide

/-- Settles O39, by what taking an interrupt does and the target of each mode. -/
theorem interruptResponses : Obligations.InterruptResponses := by
  refine fun s => ⟨?_, ?_⟩
  · have bytes := pushed16_withControl_ram s.pc s { s with nmiPending := false }
    rw [nmiResponse, enterTrap_ran, pushed16_eq s.pc s, ← bytes, pushed16_eq]
    rfl
  · have bytes := pushed16_withControl_ram s.pc s { s with intState := .serviced, iff2 := false }
    have entered : enterTrap 7 { s with intState := .serviced, iff2 := false } =
        { ran (pushed16 s.pc s) 0 1 ([.ack 7] ++ cycPush s) with
          intState := .serviced, halted := false, iff1 := false, iff2 := false } := by
      rw [enterTrap_ran, pushed16_eq s.pc s, ← bytes, pushed16_eq]
      rfl
    simp only [intResponse, entered, rstByte_iff, rstByte_target, cycle16_ran]
    rfl

/-- A response that answers leaves the request serviced. -/
theorem intResponse_request {s t : State} (h : intResponse s = .next t) :
    t.intState = .serviced ∧ t.nmiPending = s.nmiPending ∧ t.inhibit = s.inhibit := by
  obtain ⟨-, -, -, -, hi, hn, hr⟩ := (intResponse_frame h).interrupts
  exact ⟨hr, hn, hi⟩

/-- The one refusal (R508): a maskable interrupt accepted in mode 0 with a bus byte that is no RST opcode. -/
def Refuses (s : State) : Prop := stepKind s = .int ∧ s.im = .im0 ∧ s.cfg.intBusByte &&& 0xC7 ≠ 0xC7

theorem intResponse_refused {s : State} (hm : s.im = .im0) (hb : s.cfg.intBusByte &&& 0xC7 ≠ 0xC7) :
    intResponse s = .refused .im0NonRst := by
  simp only [intResponse, hm, if_neg hb]

theorem intResponse_next {s : State} (h : ¬(s.im = .im0 ∧ s.cfg.intBusByte &&& 0xC7 ≠ 0xC7)) :
    ∃ t, intResponse s = .next t := by
  unfold intResponse
  cases hm : s.im with
  | im0 =>
    have hb : s.cfg.intBusByte &&& 0xC7 = 0xC7 := not_not.1 fun hb => h ⟨hm, hb⟩
    exact ⟨_, if_pos hb⟩
  | im1 => exact ⟨_, rfl⟩
  | im2 => exact ⟨_, rfl⟩

/-! ### No trap (R500, R501, R515) -/

theorem Answers.exists_next {P : State → Prop} {R : Result} (h : Answers P R) : ∃ t, R = .next t := by
  cases R with
  | next t => exact ⟨t, rfl⟩
  | fault e => exact h.elim
  | refused e => exact h.elim

theorem exec_next (i : Instr) (s : State) : ∃ t, exec i s = .next t := (exec_frame i s).exists_next

theorem cpuStep_refused {s : State} (h : Refuses s) : cpuStep s = .refused .im0NonRst := by
  obtain ⟨hk, hm, hb⟩ := h
  rw [cpuStep_int hk]
  exact intResponse_refused hm hb

theorem cpuStep_next {s : State} (h : ¬Refuses s) : ∃ t, cpuStep s = .next t := by
  cases hk : stepKind s with
  | nmi => exact ⟨_, cpuStep_nmi hk⟩
  | int =>
    rw [cpuStep_int hk]
    exact intResponse_next fun hm => h ⟨hk, hm⟩
  | haltedCycle => exact ⟨_, cpuStep_haltedCycle hk⟩
  | instruction =>
    obtain ⟨i, -, -, run⟩ := cpuStep_instruction hk
    rw [run]
    exact exec_next i _

theorem refuses_coordinate_iff (s : State) :
    Refuses (coordinate s) ↔
      stepKind (coordinate s) = .int ∧ s.im = .im0 ∧ s.cfg.intBusByte &&& 0xC7 ≠ 0xC7 := by
  have hm : (coordinate s).im = s.im := by rw [coordinate_eq]; rfl
  have hc : (coordinate s).cfg = s.cfg := by rw [coordinate_eq]; rfl
  rw [Refuses, hm, hc]

/-- Settles O40: a step answers unless it refuses, and it refuses in one way. -/
theorem noTrap : Obligations.NoTrap := by
  refine ⟨exec_next, fun s e h => ?_, fun s e => ?_⟩
  · by_cases hr : Refuses (coordinate s)
    · cases (cpuStep_refused hr).symm.trans h
    · obtain ⟨t, ht⟩ := cpuStep_next hr
      cases ht.symm.trans h
  · rw [← refuses_coordinate_iff, step]
    by_cases hr : Refuses (coordinate s)
    · rw [cpuStep_refused hr, Host.Outcome.refused.injEq, eq_comm]
      exact (and_iff_left hr).symm
    · obtain ⟨t, ht⟩ := cpuStep_next hr
      rw [ht]
      exact iff_of_false nofun fun h => hr h.2

/-! ### The request, the pending NMI and `inhibit` (R503, 10_state R34 to R36) -/

/-- Only EI and NONI set `inhibit`. -/
theorem exec_inhibit_iff {i : Instr} {s t : State} (h : exec i s = .next t) (hs : s.inhibit = false) :
    t.inhibit = true ↔ i = .ei ∨ ∃ xy, i = .noni xy := by
  obtain ⟨-, -, -, -, hi, -, -⟩ := interruptFrame i s t h
  rw [hi, hs]
  split <;> simp_all

/-- Settles O42, by what each of the four things a step can do leaves. -/
theorem interruptState : Obligations.InterruptState := by
  refine ⟨fun s => ⟨rfl, by rw [raiseInt_eq], by rw [endFrame_eq]⟩, fun s t h => ?_⟩
  cases hk : stepKind s with
  | nmi =>
    rw [cpuStep_nmi hk, (interruptResponses _).1] at h
    cases h
    simp
  | int =>
    rw [cpuStep_int hk] at h
    simpa using intResponse_request h
  | haltedCycle =>
    rw [cpuStep_haltedCycle hk] at h
    cases h
    simp
  | instruction =>
    obtain ⟨i, -, decoded, run⟩ := cpuStep_instruction hk
    rw [run] at h
    obtain ⟨-, -, -, -, -, hr, hn⟩ := interruptFrame i _ t h
    refine ⟨hr, hn, (exec_inhibit_iff h rfl).trans ?_⟩
    simp [decoded]

/-! ### The end of a run (70_reset R620) -/

theorem ended_coordinate {s : State} (h : s.ended) : (coordinate s).ended := by
  rw [coordinate_eq]
  exact h

/-- Settles O45: an ended state is halted with no interrupt to answer, before and after the coordinator. -/
theorem endedStays : Obligations.EndedStays := by
  refine fun s h => ⟨cpuStep_haltedCycle (stepKind_of_ended h), _,
    cpuStep_haltedCycle (stepKind_of_ended (ended_coordinate h)), ended_coordinate h, ?_, ?_⟩
  · rw [coordinate_eq]
    rfl
  · rw [coordinate_eq]
    rfl

end Sys2Proof.Machine
end

section
/-! PROOFS. What one step costs (60_exceptions R504, 70_reset R608 to R619): `StepCost`. `Took n s t` bounds the time
from `s` to `t`. Each named operation adds its T-states and at most 6 more for each wait (R613), so the cost of an
instruction is read off its meaning. -/

namespace Sys2Proof.Machine

/-! ### The bound -/

theorem delay_le_six (cfg : Config) (x : Nat) : delay cfg x ≤ 6 := by
  have pattern (k : Nat) : contPattern k ≤ 6 := by
    unfold contPattern
    split <;> omega
  simp only [delay]
  split_ifs
  · exact Nat.zero_le 6
  · exact Nat.zero_le 6
  · exact pattern _

/-- How long a memory cycle waits (R611, R613). -/
theorem wait_le_six (s : State) (a : Word) : (if contended s a then delay s.cfg s.frameT else 0) ≤ 6 := by
  split
  · exact delay_le_six _ _
  · exact Nat.zero_le 6

/-- From `s` to `t` at least 4 and at most `n` T-states pass. -/
def Took (n : Nat) (s t : State) : Prop := s.frameT + 4 ≤ t.frameT ∧ t.frameT ≤ s.frameT + n

namespace Took

variable {n : Nat} {s t u : State}

theorem mono {m : Nat} (h : Took n s t) (hm : n ≤ m) : Took m s t := ⟨h.1, h.2.trans (Nat.add_le_add_left hm _)⟩

theorem same (h : Took n s t) (hu : u.frameT = t.frameT) : Took n s u := by
  unfold Took
  rw [hu]
  exact h

theorem ite {c : Prop} [Decidable c] (h : Took n s t) (h' : Took n s u) : Took n s (if c then t else u) := by
  split
  · exact h
  · exact h'

/-! ### Fetches and time -/

theorem tick (h : Took n s t) {k m : Nat} (hk : k ≤ m) : Took (n + m) s (tick k t) :=
  ⟨h.1.trans (Nat.le_add_right _ k), (Nat.add_le_add h.2 hk).trans_eq (Nat.add_assoc ..)⟩

/-- An acknowledge cycle, with which a response begins (R618). -/
theorem ack (s : State) {k : Nat} (hk : 4 ≤ k) : Took k s (Machine.tick k s) :=
  ⟨Nat.add_le_add_left hk s.frameT, le_refl _⟩

/-- The opcode fetch with which every other step begins. -/
theorem opcode (s : State) {a : Word} : Took 10 s (Machine.cycle a 4 s) :=
  ⟨Nat.add_le_add_right (Nat.le_add_right ..) 4,
    (Nat.add_le_add_right (Nat.add_le_add_left (wait_le_six s a) _) 4).trans_eq (Nat.add_assoc ..)⟩

/-- A wait, where there is one, and then `k` T-states. -/
theorem cycle (h : Took n s t) {a : Word} {k : Nat} : Took (n + 6 + k) s (cycle a k t) :=
  (h.tick (wait_le_six t a)).tick (le_refl k)

theorem cycle16 (h : Took n s t) {a : Word} : Took (n + 18) s (cycle16 a t) := h.cycle.cycle

theorem internal (h : Took n s t) {a : Word} {k : Nat} : Took (n + 7 * k) s (internal a k t) := by
  induction k generalizing n t with
  | zero => exact h
  | succ k ih => exact (ih h.cycle).mono (by omega)

theorem ioPart (h : Took n s t) {k : Nat} : Took (n + 6 + k) s (ioPart k t) :=
  (h.tick (delay_le_six _ _)).tick (le_refl k)

/-- The longest of the four rows of R617 has four parts of one T-state. -/
theorem ioCycle (h : Took n s t) {p : Word} : Took (n + 28) s (ioCycle p t) := by
  unfold Machine.ioCycle
  split_ifs
  · exact h.ioPart.ioPart.ioPart.ioPart
  · exact h.ioPart.ioPart.mono (by omega)
  · exact (h.tick (le_refl 4)).mono (by omega)
  · exact (h.tick (le_refl 1)).ioPart.mono (by omega)

theorem outCycle (h : Took n s t) {p : Word} {v : Byte} : Took (n + 28) s (outCycle p v t) := h.ioCycle

theorem fetchOp (s : State) : Took 10 s (fetchOp s) := opcode s

theorem fetch8 (h : Took n s t) : Took (n + 9) s (fetch8 t) := h.cycle

theorem fetch16 (h : Took n s t) : Took (n + 18) s (fetch16 t) := h.fetch8.fetch8

theorem fetchOp2 (s : State) : Took 20 s (fetchOp2 s) := (fetchOp s).cycle

theorem fetchIr (s : State) : Took 27 s (fetchIr s) := (fetchOp2 s).internal

theorem indexed (s : State) {xy : XY} {d : Byte} : Took 64 s (indexed xy d s) := (fetchOp2 s).fetch8.internal

theorem indexed4 (s : State) {xy : XY} {d : Byte} : Took 52 s (indexed4 xy d s) := (fetchOp2 s).fetch16.internal

/-! ### Stores and the stack -/

theorem store8 (h : Took n s t) {a : Word} {v : Byte} : Took (n + 9) s (store8 a v t) :=
  h.cycle.same (write8_frameT a v _)

theorem store16 (h : Took n s t) {a v : Word} : Took (n + 18) s (store16 a v t) := h.store8.store8

theorem modify (h : Took n s t) {a : Word} {v : Byte} : Took (n + 25) s (modify a v t) := h.cycle.cycle.store8

theorem push16 (h : Took n s t) {v : Word} : Took (n + 18) s (push16 v t) := by
  rw [push16_eq]
  exact h.store8.store8.same rfl

theorem pop16 (h : Took n s t) : Took (n + 18) s (pop16 t) :=
  (h.cycle16 (a := t.sp)).same rfl

theorem popPc (h : Took n s t) : Took (n + 18) s (popPc t) := h.pop16.same rfl

/-! ### Registers -/

/-- A change of the main registers, PC, SP and MEMPTR; the fields are written out, so that `t` is read off the term. -/
theorem regs (ht : Took n s t) {a f b c d e h l : Byte} {sp pc memptr : Word} :
    Took n s
      { t with a := a, f := f, b := b, c := c, d := d, e := e, h := h, l := l, sp := sp, pc := pc, memptr := memptr } :=
  ht

theorem setR8 (h : Took n s t) {r : R8} {v : Byte} : Took n s (setR8 r v t) := h.same (by cases r <;> rfl)

theorem setXy (h : Took n s t) {xy : XY} {v : Word} : Took n s (setXy xy v t) := h.same (setXy_frameT xy v t)

theorem setHalf (h : Took n s t) {xy : XY} {j : Half} {v : Byte} : Took n s (setHalf xy j v t) :=
  h.same (setHalf_frameT xy j v t)

theorem setP8 (h : Took n s t) {xy : XY} {p : P8} {v : Byte} : Took n s (setP8 xy p v t) :=
  h.same (setP8_frameT xy p v t)

theorem setDd (h : Took n s t) {p : DD} {v : Word} : Took n s (setDd p v t) := h.same (setDd_frameT p v t)

theorem setQq (h : Took n s t) {p : QQ} {v : Word} : Took n s (setQq p v t) := h.same (setQq_frameT p v t)

theorem setBc (h : Took n s t) {v : Word} : Took n s (setBc v t) := h

theorem setDe (h : Took n s t) {v : Word} : Took n s (setDe v t) := h

theorem setHl (h : Took n s t) {v : Word} : Took n s (setHl v t) := h

theorem jumpTo (h : Took n s t) {v : Word} : Took n s (jumpTo v t) := h

/-! ### The shared meanings -/

theorem exchangeTop (h : Took n s t) {v : Word} : Took (n + 57) s (exchangeTop v t) :=
  h.cycle16.cycle.store8.store8.internal.regs

theorem transfer (s : State) {delta : Word} : Took 52 s (transfer delta s) :=
  (fetchOp2 s).cycle.store8.internal.regs.setHl.setDe.setBc

theorem search (s : State) {delta : Word} : Took 64 s (search delta s) :=
  (fetchOp2 s).cycle.internal.regs.setHl.setBc

theorem repeatPc (h : Took n s t) : Took n s (repeatPc t) := h

theorem repeatBlock (h : Took n s t) {a : Word} : Took (n + 35) s (repeatBlock a t) := h.internal.repeatPc.regs

theorem loadWord (h : Took n s t) {nn : Word} : Took (n + 18) s (loadWord nn t) := h.cycle16.regs

theorem jumpRel (h : Took n s t) {e : Byte} : Took (n + 35) s (jumpRel e t) := h.internal.jumpTo

theorem callTo (h : Took n s t) {nn : Word} : Took (n + 25) s (callTo nn t) := h.internal.push16.jumpTo

theorem blockIn (s : State) {delta : Word} : Took 64 s (blockIn delta s) := (fetchIr s).ioCycle.store8.regs.setHl

theorem blockOut (s : State) {delta : Word} : Took 64 s (blockOut delta s) :=
  (fetchIr s).cycle.outCycle.regs.setHl

/-- The bound of the statement. -/
theorem within (h : Took n s t) (hn : n ≤ 127 := by decide) : Took 127 s t := h.mono hn

end Took

/-- What an instruction costs. The longest are the repeating inputs and outputs. -/
theorem exec_took (i : Instr) (s : State) : Answers (Took 127 s) (exec i s) := by
  have one : Took 10 s (fetchOp s) := Took.fetchOp s
  have two : Took 20 s (fetchOp2 s) := Took.fetchOp2 s
  have xy3 : ∀ {xy d}, Took 64 s (indexed xy d s) := Took.indexed s
  have xy4 : ∀ {xy d}, Took 52 s (indexed4 xy d s) := Took.indexed4 s
  cases i with
  -- 40_load8
  | ldRR r r' => exact one.setR8.within
  | ldRN r n => exact one.fetch8.setR8.within
  | ldRMemHl r => exact one.cycle.setR8.within
  | ldMemHlR r => exact one.store8.within
  | ldMemHlN n => exact one.fetch8.store8.within
  | ldRMemXy xy r d => exact xy3.cycle.setR8.within
  | ldMemXyR xy r d => exact xy3.store8.within
  | ldMemXyN xy d n => exact xy4.store8.within
  | ldAMemBc | ldAMemDe => exact one.cycle.regs.within
  | ldAMemNn nn => exact one.fetch16.cycle.regs.within
  | ldMemBcA | ldMemDeA => exact one.store8.regs.within
  | ldMemNnA nn => exact one.fetch16.store8.regs.within
  | ldAI | ldAR | ldIA | ldRA => exact Took.within (Took.fetchIr s)
  | ldPP xy p p' => exact two.setP8.within
  | ldXyHalfN xy j n => exact two.fetch8.setHalf.within
  -- 41_load16
  | ldDdNn dd nn => exact one.fetch16.setDd.within
  | ldXyNn xy nn => exact two.fetch16.setXy.within
  | ldHlMemNn nn => exact one.fetch16.loadWord.setHl.within
  | ldDdMemNn dd nn => exact two.fetch16.loadWord.setDd.within
  | ldXyMemNn xy nn => exact two.fetch16.loadWord.setXy.within
  | ldMemNnHl nn => exact one.fetch16.store16.regs.within
  | ldMemNnDd dd nn => exact two.fetch16.store16.regs.within
  | ldMemNnXy xy nn => exact two.fetch16.store16.regs.within
  | ldSpHl => exact one.internal.regs.within
  | ldSpXy xy => exact two.internal.regs.within
  | pushQq qq => exact one.internal.push16.within
  | pushXy xy => exact two.internal.push16.within
  | popQq qq => exact one.pop16.setQq.within
  | popXy xy => exact two.pop16.setXy.within
  -- 42_exchange_block
  | exDeHl | exAfAf | exx => exact one.within
  | exSpHl => exact one.exchangeTop.setHl.within
  | exSpXy xy => exact two.exchangeTop.setXy.within
  | ldi | ldd => exact (Took.transfer s).within
  | ldir | lddr => exact (Took.transfer s).repeatBlock.within.ite (Took.transfer s).within
  | cpi | cpd => exact (Took.search s).within
  | cpir | cpdr => exact (Took.search s).repeatBlock.within.ite (Took.search s).within
  -- 43_arith8
  | addR r | adcR r | subR r | sbcR r | andR r | xorR r | orR r | cpR r => exact one.within
  | addN n | adcN n | subN n | sbcN n | andN n | xorN n | orN n | cpN n => exact one.fetch8.regs.within
  | addMemHl | adcMemHl | subMemHl | sbcMemHl | andMemHl | xorMemHl | orMemHl | cpMemHl => exact one.cycle.regs.within
  | addMemXy xy d | adcMemXy xy d | subMemXy xy d | sbcMemXy xy d | andMemXy xy d | xorMemXy xy d | orMemXy xy d
  | cpMemXy xy d => exact xy3.cycle.regs.within
  | addXyHalf xy j | adcXyHalf xy j | subXyHalf xy j | sbcXyHalf xy j | andXyHalf xy j | xorXyHalf xy j
  | orXyHalf xy j | cpXyHalf xy j => exact two.within
  | incR r | decR r => exact one.regs.setR8.within
  | incMemHl | decMemHl => exact one.modify.regs.within
  | incMemXy xy d | decMemXy xy d => exact xy3.modify.regs.within
  | incXyHalf xy j | decXyHalf xy j => exact two.regs.setHalf.within
  -- 44_general_control
  | daa | cpl | ccf | scf | nop | halt | di | ei | noni xy => exact one.within
  | neg u | im0 u v | im1 u | im2 u | nopEd7 u | nopEd0 x | nopEd8 x | nopEdA x x' | nopEdC x => exact two.within
  -- 45_arith16
  | addHlSs ss => exact one.internal.regs.setHl.within
  | adcHlSs ss | sbcHlSs ss => exact two.internal.regs.setHl.within
  | addXyPp xy pp => exact two.internal.regs.setXy.within
  | incSs ss | decSs ss => exact one.internal.setDd.within
  | incXy xy | decXy xy => exact two.internal.setXy.within
  -- 46_rotate_shift
  | rlca | rla | rrca | rra => exact one.within
  | rlcR r | rrcR r | rlR r | rrR r | slaR r | sraR r | sllR r | srlR r => exact two.regs.setR8.within
  | rlcMemHl | rrcMemHl | rlMemHl | rrMemHl | slaMemHl | sraMemHl | sllMemHl | srlMemHl =>
    exact two.modify.regs.within
  | rlcMemXy xy d | rrcMemXy xy d | rlMemXy xy d | rrMemXy xy d | slaMemXy xy d | sraMemXy xy d | sllMemXy xy d
  | srlMemXy xy d => exact xy4.modify.regs.within
  | rlcMemXyR xy d r | rrcMemXyR xy d r | rlMemXyR xy d r | rrMemXyR xy d r | slaMemXyR xy d r | sraMemXyR xy d r
  | sllMemXyR xy d r | srlMemXyR xy d r => exact xy4.modify.regs.setR8.within
  | rld | rrd => exact two.cycle.internal.store8.regs.within
  -- 47_bit
  | bitR bit r => exact two.within
  | bitMemHl bit => exact two.cycle.cycle.regs.within
  | bitMemXy xy bit d z => exact xy4.cycle.cycle.regs.within
  | setR bit r | resR bit r => exact two.setR8.within
  | setMemHl bit | resMemHl bit => exact two.modify.within
  | setMemXy xy bit d | resMemXy xy bit d => exact xy4.modify.within
  | setMemXyR xy bit d r | resMemXyR xy bit d r => exact xy4.modify.setR8.within
  -- 48_jump_call_return
  | jpNn nn => exact one.fetch16.jumpTo.within
  | jpCcNn cc nn => exact one.fetch16.jumpTo.within.ite one.fetch16.regs.within
  | jr e => exact one.fetch8.jumpRel.within
  | jrC e | jrNc e | jrZ e | jrNz e => exact one.fetch8.jumpRel.within.ite one.fetch8.within
  | jpHl => exact one.within
  | jpXy xy => exact two.within
  | djnz e => exact one.internal.fetch8.regs.jumpRel.within.ite one.internal.fetch8.regs.within
  | callNn nn => exact one.fetch16.callTo.within
  | callCcNn cc nn => exact one.fetch16.callTo.within.ite one.fetch16.regs.within
  | ret => exact one.popPc.within
  | retCc cc => exact one.internal.popPc.within.ite one.internal.within
  | reti | retn u => exact (two.same (u := { fetchOp2 s with iff1 := (fetchOp2 s).iff2 }) rfl).popPc.within
  | rst t => exact one.internal.push16.jumpTo.within
  -- 49_io
  | inAN n => exact one.fetch8.ioCycle.regs.within
  | inRC r => exact two.ioCycle.regs.setR8.within
  | inC => exact two.ioCycle.regs.within
  | ini | ind => exact (Took.blockIn s).within
  | inir | indr => exact (Took.blockIn s).internal.repeatPc.within.ite (Took.blockIn s).within
  | outNA n => exact one.fetch8.outCycle.regs.within
  | outCR r | outC0 => exact two.outCycle.regs.within
  | outi | outd => exact (Took.blockOut s).within
  | otir | otdr => exact (Took.blockOut s).internal.repeatPc.within.ite (Took.blockOut s).within

/-! ### The responses -/

theorem enterTrap_took {k : Nat} (hk : 4 ≤ k) (s : State) : Took (k + 18) s (enterTrap k s) :=
  (Took.ack { s with halted := false, iff1 := false, r := incR s.r } hk).push16

theorem intResponse_took {s t : State} (h : intResponse s = .next t) : Took 127 s t := by
  have entered : Took 25 s (enterTrap 7 { s with intState := .serviced, iff2 := false }) :=
    enterTrap_took (by decide) { s with intState := .serviced, iff2 := false }
  unfold intResponse at h
  split at h
  · split at h <;> cases h
    exact entered.jumpTo.within
  · cases h
    exact entered.jumpTo.within
  · cases h
    exact entered.cycle16.jumpTo.within

theorem cpuStep_took {s t : State} (h : cpuStep s = .next t) : Took 127 s t := by
  cases hk : stepKind s with
  | nmi =>
    rw [cpuStep_nmi hk] at h
    cases h
    exact (enterTrap_took (by decide) { s with inhibit := false, nmiPending := false }).jumpTo.within
  | int => exact intResponse_took (s := { s with inhibit := false }) ((cpuStep_int hk).symm.trans h)
  | haltedCycle =>
    rw [cpuStep_haltedCycle hk] at h
    cases h
    exact Took.within (Took.opcode (a := s.pc) s)
  | instruction =>
    obtain ⟨i, -, -, run⟩ := cpuStep_instruction hk
    exact (exec_took i { s with inhibit := false }).of_next (run.symm.trans h)

/-- Settles O46: the cost of a response, of a halted cycle and of every instruction. -/
theorem stepCost : Obligations.StepCost := fun _ _ h => ⟨(cpuStep_took h).1, Nat.lt_succ_of_le (cpuStep_took h).2⟩

end Sys2Proof.Machine
end

section
/-! PROOFS. The frame (60_exceptions R520, R521, R523): `RunFrame`. Since a step costs at least 4 T-states, the loop
meets the budget before its fuel is used up; since it costs fewer than 128, the overshoot is that small. -/

namespace Sys2Proof.Machine

/-! ### The bytes of a range -/

theorem Memory.length_readRange (m : Memory) (k n : Nat) : (m.readRange k n).length = n := by
  induction n generalizing k with
  | zero => rfl
  | succ n ih => exact congrArg (· + 1) (ih (k + 1))

theorem Memory.getElem?_readRange (m : Memory) {k n j : Nat} (hj : j < n) :
    (m.readRange k n)[j]? = some (m.read (k + j)) := by
  induction n generalizing k j with
  | zero => exact absurd hj (Nat.not_lt_zero j)
  | succ n ih =>
    cases j with
    | zero => rfl
    | succ j =>
      rw [Memory.readRange, List.getElem?_cons_succ, ih (Nat.lt_of_succ_lt_succ hj), Nat.add_right_comm, Nat.add_assoc]

/-! ### The loop -/

section

variable {s t : State}

theorem frameLoop_of_over (h : frameTstates s.cfg.model ≤ s.frameT) (fuel : Nat) : frameLoop fuel s = .next s := by
  cases fuel with
  | zero => rfl
  | succ fuel => rw [frameLoop, if_pos ((frameOver_iff s).2 h)]

theorem frameLoop_of_next (h : s.frameT < frameTstates s.cfg.model) (ht : cpuStep (raiseInt s) = .next t) (fuel : Nat) :
    frameLoop (fuel + 1) s = frameLoop fuel t := by
  rw [frameLoop, if_neg (mt (frameOver_iff s).1 (Nat.not_le.2 h)), ht]

theorem frameLoop_of_refused {e : Refusal} (h : s.frameT < frameTstates s.cfg.model)
    (he : cpuStep (raiseInt s) = .refused e) (fuel : Nat) : frameLoop (fuel + 1) s = .refused e := by
  rw [frameLoop, if_neg (mt (frameOver_iff s).1 (Nat.not_le.2 h)), he]

end

/-- How the loop ends: the budget is met, or a step before that refuses. -/
inductive LoopEnds (fuel : Nat) (s : State) : Prop
  | completed {t : State} (run : frameLoop fuel s = .next t) (cfg : t.cfg = s.cfg)
    (met : frameTstates s.cfg.model ≤ t.frameT)
    (overshoot : s.frameT < frameTstates s.cfg.model → t.frameT < frameTstates s.cfg.model + 128)
  | refused {k : Nat} {u : State} (run : frameLoop fuel s = .refused .im0NonRst) (before : frameLoop k s = .next u)
    (cfg : u.cfg = s.cfg) (within : u.frameT < frameTstates s.cfg.model) (refuses : Refuses (raiseInt u))

/-- A fuel of a quarter of what is missing from the budget is enough. -/
theorem frameLoop_ends (fuel : Nat) (s : State) (enough : frameTstates s.cfg.model ≤ s.frameT + 4 * fuel) :
    LoopEnds fuel s := by
  induction fuel generalizing s with
  | zero => exact .completed rfl rfl enough fun h => absurd enough (Nat.not_le.2 h)
  | succ fuel ih =>
    by_cases full : frameTstates s.cfg.model ≤ s.frameT
    · exact .completed (frameLoop_of_over full _) rfl full fun h => absurd full (Nat.not_le.2 h)
    have within := Nat.not_le.1 full
    by_cases refuses : Refuses (raiseInt s)
    · exact .refused (k := 0) (frameLoop_of_refused within (cpuStep_refused refuses) fuel) rfl rfl within refuses
    obtain ⟨t, step⟩ := cpuStep_next refuses
    have loop := frameLoop_of_next within step
    have cfg : t.cfg = s.cfg := ((raiseInt_keeps s).trans (cpuStep_keeps step)).inputs.1
    have start : (raiseInt s).frameT = s.frameT := by rw [raiseInt_eq]
    obtain ⟨least, most⟩ := stepCost _ _ step
    rw [start] at least most
    by_cases met : frameTstates s.cfg.model ≤ t.frameT
    · exact .completed ((loop fuel).trans (frameLoop_of_over (cfg ▸ met) fuel)) cfg met fun _ => by omega
    · have rest := ih t (by rw [cfg]; omega)
      cases rest with
      | completed run cfg' met' overshoot =>
        rw [cfg] at cfg' met' overshoot
        exact .completed ((loop fuel).trans run) cfg' met' fun _ => overshoot (Nat.not_le.1 met)
      | refused run before cfg' within' refuses' =>
        rw [cfg] at cfg' within'
        exact .refused ((loop fuel).trans run) ((loop _).trans before) cfg' within' refuses'

/-! ### The statement -/

theorem runFrame_of_next {s t : State} (h : frameLoop (frameTstates s.cfg.model) (startFrame s) = .next t) :
    runFrame s = .next (endFrame t, { completed := t.frameT, log := t.log, video := videoBytes t }) := by
  rw [runFrame, h]

theorem cellKey_start (p : Nat) : cellKey p 0 = p * 16384 := Nat.add_zero _

theorem videoPage_m48 {s : State} (h : s.cfg.model = .m48) : videoPage s = 0 := by
  rw [videoPage, h]

theorem videoPage_m128 {s : State} (h : s.cfg.model = .m128) :
    videoPage s = if s.paging.getLsbD 3 then 7 else 5 := by
  rw [videoPage, h]
  rfl

/-- Settles O47: how the loop ends from the start of the frame, and what the frame's end writes. -/
theorem runFrameEnds : Obligations.RunFrame := by
  intro s
  cases frameLoop_ends (frameTstates s.cfg.model) (startFrame s) (by simp only [startFrame]; omega) with
  | @completed t run cfg met overshoot =>
    have cfg' : t.cfg = s.cfg := cfg
    refine .inl ⟨_, _, runFrame_of_next run, met, overshoot, ?_, ?_, ?_, ?_, fun k hk => ?_⟩
    · rw [endFrame_eq, cfg']
      exact Nat.sub_add_cancel met
    · rw [endFrame_eq]
      dsimp only
      split <;> simp_all
    · rw [endFrame_eq]
    · exact Memory.length_readRange ..
    · rw [endFrame_eq]
      refine (Memory.getElem?_readRange _ hk).trans ?_
      dsimp only
      cases hm : t.cfg.model with
      | m48 => rw [cellKey_start, videoPage_m48 hm]
      | m128 => rw [cellKey_start, videoPage_m128 hm]
  | refused run before cfg within refuses =>
    obtain ⟨hk, hm, hb⟩ := refuses
    rw [raiseInt_eq] at hm hb
    refine .inr ⟨cfg ▸ hb, ?_, _, _, before, within, hk, hm⟩
    rw [runFrame, run]

end Sys2Proof.Machine
end

section
/-! PROOFS. The jumps, calls, restarts and returns (48_jump_call_return): `Jumps` and `CallsReturns`. Each form is its
fetches (Laws/Ops) and, where its condition holds, one of three shared endings: a relative jump, a call, a pop of PC. -/

namespace Sys2Proof.Machine

/-! ### The shared endings after the fetches -/

section

variable (s : State) (m : Nat) (cs : List Cycle)

/-- A relative jump after two bytes (R422): five T-states at the second one, the target counted from the byte after. -/
theorem jumpRel_after (e : Byte) :
    jumpRel e (ran s 2 m cs) =
      { ran s 2 m (cs ++ [.idle (s.pc + 1) 5]) with
        pc := s.pc + 2 + e.signExtend 16, memptr := s.pc + 2 + e.signExtend 16 } := by
  have last : (ran s 2 m cs).pc - 1 = s.pc + 1 := pc_before s.pc 1
  rw [jumpRel, last, internal_ran, ran_more]
  rfl

/-- A call after three bytes (R430): a T-state at the third one, then the push of the address after it. -/
theorem callTo_after (nn : Word) :
    callTo nn (ran s 3 m cs) =
      { ran (pushed16 (s.pc + 3) s) 3 m (cs ++ [.idle (s.pc + 2) 1] ++ cycPush s) with pc := nn, memptr := nn } := by
  have last : (ran s 3 m cs).pc - 1 = s.pc + 2 := pc_before s.pc 2
  rw [callTo, last, internal_ran, ran_more, push16_after]
  rfl

/-- A return from a trap (R434, R435): IFF1 takes IFF2 and PC is popped. -/
theorem returnFromTrap_after (l : Nat) :
    returnFromTrap (ran s l m cs) =
      { ran s l m (cs ++ cycPop s) with
        sp := s.sp + 2, pc := read16 s s.sp, memptr := read16 s s.sp, iff1 := s.iff2 } :=
  popPc_after { s with iff1 := s.iff2 } l m cs

end

/-- A relative jump with a condition, taken and not taken (R423). -/
theorem jumpRelIf_eq {c : Bool} {e : Byte} {t go stay : State} (hgo : jumpRel e t = go) (hstay : t = stay) :
    jumpRelIf c e t = .next (if c then go else stay) :=
  congrArg Host.Outcome.next (if_congr Iff.rfl hgo hstay)

theorem jumpRelIf_not_eq {c : Bool} {e : Byte} {t go stay : State} (hgo : jumpRel e t = go) (hstay : t = stay) :
    jumpRelIf (!c) e t = .next (if c then stay else go) := by
  rw [jumpRelIf_eq hgo hstay]
  cases c <;> rfl

/-- The fetches of `DJNZ` (R429): an opcode, a T-state at `ir`, the displacement. -/
theorem djnzFetch_ran (s : State) :
    fetch8 (internal (fetchOp s).ir 1 (fetchOp s)) =
      ran s 2 1 [.mem s.pc 4, .idle (irAfter s 1) 1, .mem (s.pc + 1) 3] := by
  rw [fetchOp_ran, internal_ran, ran_more, fetch8_ran, ran_ran]
  rfl

/-- The restart address as a number (30_encoding R119). -/
theorem restartAddr_eq (t : BitVec 3) : restartAddr t = BitVec.ofNat 16 (8 * t.toNat) := by
  revert t
  decide

/-! ### The statements -/

/-- Settles O30: a relative jump is its fetches with or without the shared ending, by its condition. -/
theorem jumps : Obligations.Jumps := by
  refine ⟨fun cc nn s => ⟨rfl, ?_, rfl, ?_⟩, fun e s => ?_, fun xy s => ⟨rfl, rfl, rfl, ?_⟩⟩
  · exact next_congr (jumpTo nn) (fetchNn_ran s)
  · change execJpCcNn cc nn s = _
    rw [execJpCcNn, fetchNn_ran]
    cases condHolds s.f cc <;> rfl
  · have go := jumpRel_after s 1 [.mem s.pc 4, .mem (s.pc + 1) 3] e
    rw [← fetchN_ran] at go
    have stay := fetchN_ran s
    refine ⟨rfl, congrArg Host.Outcome.next go, rfl, jumpRelIf_eq go stay, rfl, jumpRelIf_not_eq go stay,
      rfl, jumpRelIf_eq go stay, rfl, jumpRelIf_not_eq go stay, rfl, ?_⟩
    change execDjnz e s = _
    rw [execDjnz, djnzFetch_ran]
    by_cases hb : s.b - 1 = 0
    · rw [hb, if_pos rfl]
      rfl
    · rw [bne_iff_ne.2 hb, if_neg hb]
      exact congrArg Host.Outcome.next (jumpRel_after { s with b := s.b - 1 } 1 _ e)
  · exact next_congr (fun t => { t with pc := getXy s xy }) (fetchOp2_ran s)

/-- Settles O31: the fetches of the form, and the shared ending where its condition holds. -/
theorem callsReturns : Obligations.CallsReturns := by
  refine ⟨fun cc nn s => ?_, fun cc u t s => ⟨rfl, ?_, rfl, ?_, rfl, ?_, rfl, ?_, rfl, ?_⟩⟩
  · have called := callTo_after s 1 (cycNn1 s) nn
    rw [← fetchNn_ran] at called
    refine ⟨rfl, congrArg Host.Outcome.next called, rfl, congrArg Host.Outcome.next (if_congr Iff.rfl called ?_)⟩
    rw [fetchNn_ran]
  · exact congrArg Host.Outcome.next (popPc_after s 1 1 (cyc1 s))
  · change execRetCc cc s = _
    rw [execRetCc, internal_ran, fetchOp_ran, ran_more, popPc_after]
    rfl
  · change execReti s = _
    rw [execReti, fetchOp2_ran, returnFromTrap_after]
    rfl
  · change execRetn u s = _
    rw [execRetn, fetchOp2_ran, returnFromTrap_after]
    rfl
  · change execRst t s = _
    rw [execRst, internal_ran, fetchOp_ran, ran_more, push16_after, restartAddr_eq]
    rfl

end Sys2Proof.Machine
end

section
/-! PROOFS. The port dispatcher (60_exceptions R540 to R546): `PortReads` and `PortWrites`. A read is taken bit by bit;
a write is one record of the fields its lines change, each under its own condition. -/

namespace Sys2Proof.Machine

/-! ### Reads -/

theorem ones5_getLsbD {k : Nat} (hk : k < 5) : (0x1F : BitVec 5).getLsbD k = true := by
  interval_cases k <;> rfl

/-- A half-row that is not selected reads as all ones. -/
theorem row_getLsbD {c : Bool} {row : BitVec 5} {k : Nat} (hk : k < 5) :
    (if c then 0x1F else row).getLsbD k = true ↔ (c = false → row.getLsbD k = true) := by
  cases c with
  | false => simp
  | true => simpa using ones5_getLsbD hk

/-- Bit by bit the AND of the selected half-rows (R542). -/
theorem selectRows_getLsbD (p : Word) (rows : Vector (BitVec 5) 8) {k : Nat} (hk : k < 5) :
    (selectRows p rows).getLsbD k =
      decide (∀ i : Fin 8, p.getLsbD (8 + i.val) = false → rows[i].getLsbD k = true) := by
  rw [Bool.eq_iff_iff, decide_eq_true_iff]
  simp only [selectRows, BitVec.getLsbD_and, Bool.and_eq_true, row_getLsbD hk, ones5_getLsbD hk, true_and, and_assoc,
    Fin.forall_fin_succ, Fin.forall_fin_zero, and_true]
  exact Iff.rfl

theorem ulaRead_getLsbD (s : State) (p : Word) {k : Nat} (hk : k < 8) :
    (ulaRead s p).getLsbD k =
      if k < 5 then (selectRows p s.keyrow).getLsbD k else if k = 6 then s.tapeIn else true := by
  have tape : (if s.tapeIn then 0x40 else 0 : Byte).getLsbD k = (s.tapeIn && (0x40 : Byte).getLsbD k) := by
    cases s.tapeIn <;> simp
  rw [ulaRead, BitVec.getLsbD_or, BitVec.getLsbD_or, tape, BitVec.getLsbD_setWidth]
  interval_cases k <;> simp

/-- Whether a port that is no ULA port reads the sound chip (R540). -/
theorem readsAy_iff (m : Model) (p : Word) :
    (hasAy m && p.getLsbD 15 && p.getLsbD 14 && !p.getLsbD 1) = true ↔
      m = .m128 ∧ p.getLsbD 15 = true ∧ p.getLsbD 14 = true ∧ p.getLsbD 1 = false := by
  have ay : hasAy m = true ↔ m = .m128 := by cases m <;> decide
  rw [Bool.and_eq_true, Bool.and_eq_true, Bool.and_eq_true, ay, Bool.not_eq_true', and_assoc, and_assoc]

/-- Settles O34: the three lines of the dispatcher, the first bit by bit. -/
theorem portReads : Obligations.PortReads := by
  refine fun s p => ⟨fun h k hk => ?_, fun h hm h15 h14 h1 => ?_, fun h hn => ?_⟩
  · rw [portRead, if_pos h, ulaRead_getLsbD s p hk]
    split
    · exact selectRows_getLsbD p s.keyrow ‹_›
    · rfl
  · rw [portRead, if_neg (by rw [h]; decide), if_pos ((readsAy_iff ..).2 ⟨hm, h15, h14, h1⟩)]
  · rw [portRead, if_neg (by rw [h]; decide), if_neg (mt (readsAy_iff ..).1 hn)]
    rfl

/-! ### Writes -/

section

variable (p : Word) (v : Byte) (s : State)

theorem ulaLine_eq :
    (if p.getLsbD 0 = false then ulaWrite v s else s) =
      { s with
        border := if p.getLsbD 0 then s.border else v.extractLsb' 0 3
        mic := if p.getLsbD 0 then s.mic else v.getLsbD 3
        beeper := if p.getLsbD 0 then s.beeper else v.getLsbD 4 } := by
  cases p.getLsbD 0 <;> rfl

theorem pagingLine_eq (c : Bool) :
    (if c then pagingWrite v s else s) =
      { s with paging := if c = true ∧ s.paging.getLsbD 5 = false then v.extractLsb' 0 6 else s.paging } := by
  unfold pagingWrite pagingLock
  cases c <;> cases s.paging.getLsbD 5 <;> rfl

theorem ayLine_eq (c : Bool) :
    (if c then ayWrite p v s else s) =
      { s with
        aySel := if c = true ∧ p.getLsbD 14 = true then v.extractLsb' 0 4 else s.aySel
        ayReg :=
          if c = true ∧ p.getLsbD 14 = false then s.ayReg.set s.aySel.toFin (v &&& ayMask s.aySel) else s.ayReg } := by
  unfold ayWrite
  cases c <;> cases p.getLsbD 14 <;> rfl

/-- A port write (R541): every line whose condition holds, in one record. -/
theorem portWrite_fields :
    portWrite p v s =
      { s with
        log := s.log ++ [⟨s.frameT, p, v⟩]
        border := if p.getLsbD 0 then s.border else v.extractLsb' 0 3
        mic := if p.getLsbD 0 then s.mic else v.getLsbD 3
        beeper := if p.getLsbD 0 then s.beeper else v.getLsbD 4
        paging := if reachesPaging s.cfg.model p = true ∧ s.paging.getLsbD 5 = false then v.extractLsb' 0 6 else s.paging
        aySel := if reachesAy s.cfg.model p = true ∧ p.getLsbD 14 = true then v.extractLsb' 0 4 else s.aySel
        ayReg :=
          if reachesAy s.cfg.model p = true ∧ p.getLsbD 14 = false then
            s.ayReg.set s.aySel.toFin (v &&& ayMask s.aySel)
          else s.ayReg } := by
  rw [portWrite, ulaLine_eq, pagingLine_eq, ayLine_eq]
  rfl

theorem reachesPaging_iff (m : Model) :
    reachesPaging m p = true ↔ m = .m128 ∧ p.getLsbD 15 = false ∧ p.getLsbD 1 = false := by
  rw [reachesPaging, Bool.and_eq_true, Bool.and_eq_true, beq_iff_eq, Bool.not_eq_true', Bool.not_eq_true', and_assoc]

theorem reachesAy_iff (m : Model) :
    reachesAy m p = true ↔ m = .m128 ∧ p.getLsbD 15 = true ∧ p.getLsbD 1 = false := by
  have ay : hasAy m = true ↔ m = .m128 := by cases m <;> decide
  rw [reachesAy, Bool.and_eq_true, Bool.and_eq_true, ay, Bool.not_eq_true', and_assoc]

end

theorem getElem_set_fin (regs : Vector Byte 16) (i j : Fin 16) (x : Byte) :
    (regs.set i x)[j] = if j = i then x else regs[j] := by
  rw [Fin.getElem_fin, Vector.getElem_set]
  exact if_congr (eq_comm.trans Fin.ext_iff.symm) rfl rfl

/-- Settles O35: every clause reads its field off the record of `portWrite_fields`. -/
theorem portWrites : Obligations.PortWrites := by
  intro s p v t m ay
  have fields : t = _ := portWrite_fields p v s
  have mask : m = ayMask s.aySel := by
    dsimp only [m]
    generalize s.aySel = n
    revert n
    decide
  have paging := reachesPaging_iff p s.cfg.model
  have sound : reachesAy s.cfg.model p = true ↔ ay := reachesAy_iff p s.cfg.model
  refine ⟨?_, ?_, ?_, ?_, fun h => ?_, fun h => ?_, fun h => ?_, fun h => ?_, fun h => ?_, portWrite_eq p v s⟩
  · rw [fields]
  · rw [fields]
  · rw [fields]
  · rw [fields]
  · obtain ⟨hm, h15, h1, h5⟩ := h
    rw [fields]
    exact if_pos ⟨paging.2 ⟨hm, h15, h1⟩, h5⟩
  · rw [fields]
    refine if_neg fun ⟨hp, h5⟩ => h ?_
    obtain ⟨hm, h15, h1⟩ := paging.1 hp
    exact ⟨hm, h15, h1, h5⟩
  · obtain ⟨ha, h14⟩ := h
    rw [fields]
    exact ⟨if_pos ⟨sound.2 ha, h14⟩, if_neg fun ⟨_, hn⟩ => Bool.noConfusion (h14.symm.trans hn)⟩
  · obtain ⟨ha, h14⟩ := h
    have regs : t.ayReg = s.ayReg.set s.aySel.toFin (v &&& ayMask s.aySel) := by
      rw [fields]
      exact if_pos ⟨sound.2 ha, h14⟩
    rw [regs, mask, fields]
    exact ⟨if_neg fun ⟨_, hn⟩ => Bool.noConfusion (h14.symm.trans hn), fun j => getElem_set_fin ..⟩
  · rw [fields]
    exact ⟨if_neg fun ⟨hn, _⟩ => h (sound.1 hn), if_neg fun ⟨hn, _⟩ => h (sound.1 hn)⟩

end Sys2Proof.Machine
end

section
/-! PROOFS. The inputs and outputs (49_io): `Inputs` and `Outputs`. A block form is one access and the time that follows
it; a repeating form is that with PC put back while the new B is not 0. -/

namespace Sys2Proof.Machine

/-! ### The flags of a block form -/

theorem ite_hc_eq_mkF (c : Prop) [Decidable c] :
    (if c then 0x11 else 0) = mkF false false false (decide c) false false false (decide c) := by
  by_cases h : c <;> simp only [h] <;> rfl

/-- The flags of R453 and R460, flag by flag. -/
theorem ioBlockFlags_eq_mkF (b v : Byte) (k : Nat) :
    ioBlockFlags b v k =
      mkF (b.getLsbD 7) (b == 0) (b.getLsbD 5) (decide (k > 255)) (b.getLsbD 3)
        (parity (BitVec.ofNat 8 (k % 8) ^^^ b)) (v.getLsbD 7) (decide (k > 255)) := by
  simp only [ioBlockFlags, sz53_eq_mkF, ite_n_eq_mkF, ite_hc_eq_mkF, ite_pv_eq_mkF, mkF_or, Bool.or_false,
    Bool.false_or]

/-- PC put back to the first byte of an instruction of two bytes, after five T-states. -/
theorem repeatPc_eq (a : Word) {s t : State} (h : t.pc = s.pc + 2) :
    repeatPc (internal a 5 t) = { ran t 0 0 [.idle a 5] with pc := s.pc } := by
  rw [internal_ran, repeatPc, ran_pc, h, BitVec.add_zero, BitVec.add_sub_cancel]

/-! ### The inputs -/

theorem execInAN_eq (n : Byte) (s : State) :
    exec (.inAN n) s =
      (let t := ran s 2 1 [.mem s.pc 4, .mem (s.pc + 1) 3]
       .next { ran t 0 0 [.io (s.a ++ n)] with a := portRead t (s.a ++ n), memptr := s.a ++ n + 1 }) := by
  change execInAN n s = _
  rw [execInAN, fetchN_ran, ioCycle_ran]

theorem execInRC_eq (r : R8) (s : State) :
    exec (.inRC r) s =
      (let t := ran s 2 2 (cyc2 s)
       .next (setR8 r (portRead t s.bc)
        { ran t 0 0 [.io s.bc] with f := keepCFlags s.f (portRead t s.bc), memptr := s.bc + 1 })) := by
  change execInRC r s = _
  rw [execInRC, fetchOp2_ran, ioCycle_ran]

theorem execInC_eq (s : State) :
    exec .inC s =
      (let t := ran s 2 2 (cyc2 s)
       .next { ran t 0 0 [.io s.bc] with f := keepCFlags s.f (portRead t s.bc), memptr := s.bc + 1 }) := by
  change execInC s = _
  rw [execInC, fetchOp2_ran, ioCycle_ran]

/-- The state a block input (R453, R455) reads its port in. -/
def blockInStart (s : State) : State := ran s 2 2 (cyc2 s ++ [.idle (irAfter s 2) 1])

/-- A block input whose flags count `c`, the new C, and the time `ds` that follows it. -/
def blockTook (s : State) (delta : Word) (c : Byte) (ds : List Cycle) : State :=
  let t := blockInStart s
  let v := portRead t s.bc
  let b := s.b - 1
  let k := v.toNat + c.toNat
  { ran (write8 s.hl v t) 0 0 ([.io s.bc, .mem s.hl 3] ++ ds) with
    b := b, h := hiByte (s.hl + delta), l := loByte (s.hl + delta), memptr := s.bc + delta
    f := mkF (b.getLsbD 7) (b == 0) (b.getLsbD 5) (decide (k > 255)) (b.getLsbD 3)
      (parity (BitVec.ofNat 8 (k % 8) ^^^ b)) (v.getLsbD 7) (decide (k > 255)) }

section

variable (s : State) {delta : Word} {c : Byte} (hc : s.c + loByte delta = c)

include hc in
theorem ran_blockIn (ds : List Cycle) : ran (blockIn delta s) 0 0 ds = blockTook s delta c ds := by
  dsimp only [blockIn]
  rw [hc, ioBlockFlags_eq_mkF, blockIoFetch_ran, ioCycle_ran, store8_after, blockTook, ← ran_more _ 0 0 _ ds]
  rfl

include hc in
theorem blockIn_eq : blockIn delta s = blockTook s delta c [] := by
  rw [← ran_blockIn s hc, ran_nil]

theorem blockTook_pc : (blockTook s delta c []).pc = s.pc + 2 :=
  (BitVec.add_zero _).trans (write8_pc s.hl _ (blockInStart s))

include hc in
/-- A repeating block input (R454, R456). -/
theorem next_blockIn_repeat :
    (.next (if (blockIn delta s).b ≠ 0 then repeatPc (internal s.hl 5 (blockIn delta s)) else blockIn delta s) : Result) =
      .next
        (if s.b - 1 ≠ 0 then { blockTook s delta c [.idle s.hl 5] with pc := s.pc } else blockTook s delta c []) := by
  have hpc : (blockIn delta s).pc = s.pc + 2 := by rw [blockIn_eq s hc, blockTook_pc]
  rw [repeatPc_eq s.hl hpc, ran_blockIn s hc, blockIn_eq s hc]
  rfl

end

/-- Settles O32: one access each; a repeating form is the single one with or without the repeat. -/
theorem inputs : Obligations.Inputs := by
  refine ⟨fun n s => ⟨rfl, execInAN_eq n s⟩, fun r s => ?_, fun s => ?_⟩
  · intro t v f
    have flags : keepCFlags s.f v = f := keepCFlags_eq_mkF s.f v
    refine ⟨rfl, ?_, rfl, ?_⟩
    · rw [execInRC_eq, ← flags]
    · rw [execInC_eq, ← flags]
  · have up : s.c + loByte 1 = s.c + 1 := rfl
    have down : s.c + loByte (-1) = s.c - 1 := (BitVec.sub_eq_add_neg s.c 1).symm
    refine ⟨rfl, ?_, rfl, ?_, rfl, ?_, rfl, ?_⟩
    · exact congrArg Host.Outcome.next (blockIn_eq s up)
    · exact congrArg Host.Outcome.next (blockIn_eq s down)
    · exact next_blockIn_repeat s up
    · exact next_blockIn_repeat s down

/-! ### The outputs -/

/-- An output cycle is the write at its start and then its time. -/
theorem outCycle_eq (p : Word) (v : Byte) (s : State) : outCycle p v s = wrotePort p v s := by
  rw [outCycle, ioCycle_ran]
  rfl

/-- A block output: the write at the start of its cycle, then the registers. -/
def blockGave (s : State) (delta : Word) : State :=
  let v := read8 s s.hl
  let b := s.b - 1
  let p : Word := b ++ s.c
  let hl := s.hl + delta
  let k := v.toNat + (loByte hl).toNat
  { wrotePort p v (ran s 2 2 (cyc2 s ++ [.idle (irAfter s 2) 1, .mem s.hl 3])) with
    b := b, h := hiByte hl, l := loByte hl, memptr := p + delta
    f := mkF (b.getLsbD 7) (b == 0) (b.getLsbD 5) (decide (k > 255)) (b.getLsbD 3)
      (parity (BitVec.ofNat 8 (k % 8) ^^^ b)) (v.getLsbD 7) (decide (k > 255)) }

section

variable (s : State) (delta : Word)

theorem blockOut_eq : blockOut delta s = blockGave s delta := by
  dsimp only [blockOut]
  rw [ioBlockFlags_eq_mkF, blockIoFetch_ran, cycle_after, outCycle_eq, List.append_assoc]
  rfl

theorem blockGave_pc : (blockGave s delta).pc = s.pc + 2 := by
  dsimp only [blockGave, wrotePort]
  rw [portWrite_eq]
  rfl

/-- A block output does not change C. -/
theorem blockGave_bc : (blockGave s delta).bc = (s.b - 1) ++ s.c := by
  dsimp only [blockGave, wrotePort, State.bc]
  rw [portWrite_eq]
  rfl

/-- A repeating block output (R461, R463). -/
theorem next_blockOut_repeat :
    (.next (if (blockOut delta s).b ≠ 0 then repeatPc (internal (blockOut delta s).bc 5 (blockOut delta s))
        else blockOut delta s) : Result) =
      .next
        (if s.b - 1 ≠ 0 then { ran (blockGave s delta) 0 0 [.idle ((s.b - 1) ++ s.c) 5] with pc := s.pc }
         else blockGave s delta) := by
  rw [blockOut_eq, repeatPc_eq _ (blockGave_pc s delta), blockGave_bc]
  rfl

end

/-- Settles O33: one write each; a repeating form is the single one with or without the repeat. -/
theorem outputs : Obligations.Outputs := by
  refine ⟨fun n s => ⟨rfl, ?_⟩, fun r s => ⟨rfl, ?_, rfl, ?_⟩, fun s => ⟨rfl, ?_, rfl, ?_, rfl, ?_, rfl, ?_⟩⟩
  · change execOutNA n s = _
    rw [execOutNA, fetchN_ran, outCycle_eq]
  · change execOutCR r s = _
    rw [execOutCR, outBc, fetchOp2_ran, outCycle_eq]
  · change execOutC0 s = _
    rw [execOutC0, outBc, fetchOp2_ran, outCycle_eq]
  · exact congrArg Host.Outcome.next (blockOut_eq s 1)
  · exact congrArg Host.Outcome.next (blockOut_eq s (-1))
  · exact next_blockOut_repeat s 1
  · exact next_blockOut_repeat s (-1)

end Sys2Proof.Machine
end

section
/-! PROOFS. Reset and construction (70_reset_and_hazards R600, R601) and the words of the decoder's statement. All but the
draws are values the model writes out. -/

namespace Sys2Proof.Machine

/-- Settles O57: every field is the one `resetWith` writes or the one it leaves. -/
theorem reset : Obligations.Reset := by
  intro p s t
  iterate 39 refine ⟨rfl, ?_⟩
  exact ⟨rfl, rfl, rfl, rfl, rfl⟩

/-- The power-on draw of `State.reset` (log 2). -/
def resetDraw : PowerOn :=
  { a := 0xFF, f := 0xFF, b := 0xA5, c := 0xA5, d := 0xA5, e := 0xA5, h := 0xA5, l := 0xA5, a' := 0xA5, f' := 0xA5
    b' := 0xA5, c' := 0xA5, d' := 0xA5, e' := 0xA5, h' := 0xA5, l' := 0xA5, ix := 0xA5A5, iy := 0xA5A5
    memptr := 0xA5A5 }

/-- The construction draw of `State.reset` (log 3, log 5). -/
def resetConstruction : Construction :=
  { ram := [], border := 0, beeper := false, mic := false, aySel := 0, ayReg := Vector.replicate 16 0 }

/-- Settles O58: the two draws are `resetConstruction` and `resetDraw`. -/
theorem resetState : Obligations.ResetState :=
  ⟨rfl, rfl, rfl, rfl, rfl, rfl, rfl, rfl, resetConstruction, resetDraw, rfl⟩

/-- Settles O4: each word is evaluated. -/
theorem decodeWords : Obligations.DecodeWords :=
  ⟨rfl, rfl, rfl, rfl, rfl, rfl, rfl, rfl, rfl, rfl, rfl⟩

end Sys2Proof.Machine
end

section
/-! PROOFS. Snapshots (70_reset_and_hazards R604, R605). A bank and the list of its bytes determine each other:
`Memory.ofBytes` and `Memory.readRange` are inverse, and `dumpPages` is `readRange` cut into pages. -/

namespace Sys2Proof.Machine

/-! ### A bank and its bytes -/

theorem Memory.read_ofBytes (k j : Nat) (vs : List Byte) :
    (Memory.ofBytes k vs).read (k + j) = vs[j]?.getD unlistedByte := by
  induction vs generalizing k j with
  | nil => rfl
  | cons v vs ih =>
    rw [Memory.ofBytes, Memory.cons_read (Memory.ofBytes_wfFrom (k + 1) vs)]
    cases j with
    | zero => exact if_pos rfl
    | succ j => rw [if_neg (by omega), List.getElem?_cons_succ, ← ih (k + 1) j, Nat.add_right_comm, Nat.add_assoc]

/-- A key from the bound on reads as unlisted. -/
theorem Memory.read_of_below {n k : Nat} {m : Memory} (h : m.below n = true) (hk : n ≤ k) : m.read k = unlistedByte := by
  induction m with
  | nil => rfl
  | cons c m ih =>
    obtain ⟨a, v⟩ := c
    simp only [Memory.below, List.all_cons, Bool.and_eq_true, decide_eq_true_eq] at h ih
    rw [Memory.read_cell, if_neg (by omega), ih h.2]

/-- The bytes of a bank built from a list are the list. -/
theorem Memory.readRange_ofBytes (k : Nat) (vs : List Byte) : (Memory.ofBytes k vs).readRange k vs.length = vs := by
  refine List.ext_getElem? fun j => ?_
  by_cases hj : j < vs.length
  · rw [Memory.getElem?_readRange _ hj, Memory.read_ofBytes, List.getElem?_eq_getElem hj, Option.getD_some]
  · rw [List.getElem?_eq_none (by rw [Memory.length_readRange]; omega), List.getElem?_eq_none (by omega)]

/-- A canonical bank within its bound is the one built from its bytes. -/
theorem Memory.ofBytes_readRange {m : Memory} {n : Nat} (wf : m.wf = true) (below : m.below n = true) :
    Memory.ofBytes 0 (m.readRange 0 n) = m := by
  refine Memory.ext_wfFrom (Memory.ofBytes_wf 0 _) wf fun k => ?_
  have bytes := Memory.read_ofBytes 0 k (m.readRange 0 n)
  rw [Nat.zero_add] at bytes
  rw [bytes]
  by_cases hk : k < n
  · rw [Memory.getElem?_readRange m hk, Nat.zero_add, Option.getD_some]
  · rw [List.getElem?_eq_none (by rw [Memory.length_readRange]; omega), Memory.read_of_below below (by omega),
      Option.getD_none]

theorem Memory.readRange_append (m : Memory) (k a b : Nat) :
    m.readRange k a ++ m.readRange (k + a) b = m.readRange k (a + b) := by
  induction a generalizing k with
  | zero => rw [Nat.zero_add]; rfl
  | succ a ih =>
    rw [Nat.succ_add]
    simp only [Memory.readRange, List.cons_append]
    rw [← ih (k + 1), Nat.add_right_comm, Nat.add_assoc]

/-! ### Pages -/

theorem cellKey_succ (j off : Nat) : cellKey (j + 1) off = pageSize + cellKey j off := by
  rw [cellKey, cellKey, Nat.succ_mul]
  omega

theorem length_dumpPages (m : Memory) (j n : Nat) : (dumpPages m j n).length = n := by
  induction n generalizing j with
  | zero => rfl
  | succ n ih => exact congrArg (· + 1) (ih (j + 1))

theorem length_of_mem_dumpPages {m : Memory} {j n : Nat} {p : List Byte} (h : p ∈ dumpPages m j n) :
    p.length = pageSize := by
  induction n generalizing j with
  | zero => cases h
  | succ n ih =>
    rcases List.mem_cons.1 h with rfl | h
    · exact Memory.length_readRange ..
    · exact ih h

/-- The pages in a row are the bytes of their range. -/
theorem flatten_dumpPages (m : Memory) (j n : Nat) :
    (dumpPages m j n).flatten = m.readRange (cellKey j 0) (n * pageSize) := by
  induction n generalizing j with
  | zero => rw [Nat.zero_mul]; rfl
  | succ n ih =>
    rw [dumpPages, List.flatten_cons, ih, cellKey_succ, Nat.add_comm pageSize, Memory.readRange_append, Nat.succ_mul,
      Nat.add_comm pageSize]

theorem map_length_of_pages {ps : List (List Byte)} (h : ∀ p ∈ ps, p.length = pageSize) :
    ps.map List.length = List.replicate ps.length pageSize :=
  List.map_eq_replicate_iff.2 h

theorem length_flatten_of_pages {ps : List (List Byte)} (h : ∀ p ∈ ps, p.length = pageSize) :
    ps.flatten.length = ps.length * pageSize := by
  rw [List.length_flatten, map_length_of_pages h, List.sum_replicate, smul_eq_mul]

/-- The pages of a bank built from pages are those pages. -/
theorem dumpPages_ofBytes_flatten {ps : List (List Byte)} (h : ∀ p ∈ ps, p.length = pageSize) :
    dumpPages (Memory.ofBytes 0 ps.flatten) 0 ps.length = ps := by
  refine List.eq_iff_flatten_eq.2 ⟨?_, ?_⟩
  · rw [flatten_dumpPages, ← length_flatten_of_pages h]
    exact Memory.readRange_ofBytes 0 ps.flatten
  · rw [map_length_of_pages h, map_length_of_pages fun _ => length_of_mem_dumpPages, length_dumpPages]

/-- The byte at offset `off` of page `j`, in the row of all pages. -/
theorem getElem?_flatten_of_pages {ps : List (List Byte)} (h : ∀ p ∈ ps, p.length = pageSize) {j off : Nat}
    {p : List Byte} {v : Byte} (hp : ps[j]? = some p) (hv : p[off]? = some v) :
    ps.flatten[cellKey j off]? = some v := by
  induction ps generalizing j with
  | nil => cases hp
  | cons q ps ih =>
    obtain ⟨hq, hps⟩ := List.forall_mem_cons.1 h
    rw [List.flatten_cons]
    cases j with
    | zero =>
      cases hp
      obtain ⟨hoff, -⟩ := List.getElem?_eq_some_iff.1 hv
      rw [cellKey, Nat.zero_mul, Nat.zero_add, List.getElem?_append_left hoff, hv]
    | succ j =>
      rw [cellKey_succ, ← hq, List.getElem?_append_right (Nat.le_add_right ..), Nat.add_sub_cancel_left, ih hps hp]

/-! ### Loading -/

theorem intModeOf_intModeNum (im : IntMode) : intModeOf (intModeNum im) = some im := by
  cases im <;> rfl

theorem intModeOf_eq_some_iff {k : Nat} {im : IntMode} : intModeOf k = some im ↔ intModeNum im = k := by
  refine ⟨fun h => ?_, fun h => h ▸ intModeOf_intModeNum im⟩
  match k, h with
  | 0, h | 1, h | 2, h =>
    cases h
    rfl

theorem exists_intModeNum_eq_iff {k : Nat} : (∃ im, intModeNum im = k) ↔ k < 3 := by
  constructor
  · rintro ⟨im, rfl⟩
    cases im <;> decide
  · intro hk
    interval_cases k
    · exact ⟨.im0, rfl⟩
    · exact ⟨.im1, rfl⟩
    · exact ⟨.im2, rfl⟩

theorem pagesFit_iff {m : Model} {ps : List (List Byte)} :
    pagesFit m ps = true ↔ ps.length = ramPages m ∧ ∀ p ∈ ps, p.length = pageSize := by
  simp only [pagesFit, Bool.and_eq_true, decide_eq_true_eq, List.all_eq_true]

/-- The state an accepted load makes (R604), `im` the mode its number names. -/
def loadedState (n : Snapshot) (im : IntMode) (draw : Word) (s : State) : State :=
  { s with
    a := n.a, f := n.f, b := n.b, c := n.c, d := n.d, e := n.e, h := n.h, l := n.l
    a' := n.a', f' := n.f', b' := n.b', c' := n.c', d' := n.d', e' := n.e', h' := n.h', l' := n.l'
    ix := n.ix, iy := n.iy, sp := n.sp, pc := n.pc, i := n.i, r := n.r
    iff1 := n.iff1, iff2 := n.iff2, im := im
    ram := Memory.ofBytes 0 n.pages.flatten
    paging := if s.cfg.model = .m128 then n.paging.extractLsb' 0 6 else s.paging
    halted := false, inhibit := false, nmiPending := false, memptr := draw }

/-- The four checks of a load (R604), the mode named by `im`. -/
structure Loads (n : Snapshot) (im : IntMode) (s : State) : Prop where
  mode : intModeNum im = n.im
  count : n.pages.length = ramPages s.cfg.model
  size : ∀ p ∈ n.pages, p.length = pageSize
  paging : s.cfg.model = .m48 → n.paging = 0

/-- What a load answers: it is accepted exactly when the checks pass, and then it is `loadedState`. -/
theorem loadSnapshot_eq_some_iff {n : Snapshot} {draw : Word} {s t : State} :
    loadSnapshot n draw s = some t ↔ ∃ im, Loads n im s ∧ loadedState n im draw s = t := by
  constructor
  · intro h
    unfold loadSnapshot at h
    split at h
    · cases h
    · rename_i im mode
      split at h
      · cases h
      · rename_i fit
        obtain ⟨count, size⟩ := pagesFit_iff.1 (Bool.not_eq_false _ ▸ fit)
        split at h
        · cases h
        · rename_i page
          refine ⟨im, ⟨intModeOf_eq_some_iff.1 mode, count, size, fun h48 => ?_⟩, Option.some.inj h⟩
          exact Classical.not_not.1 fun hp => page ⟨h48, hp⟩
  · rintro ⟨im, ⟨mode, count, size, page⟩, rfl⟩
    have fit := pagesFit_iff.2 ⟨count, size⟩
    unfold loadSnapshot
    rw [intModeOf_eq_some_iff.2 mode]
    dsimp only
    rw [if_neg (by rw [fit]; decide), if_neg fun ⟨h48, hp⟩ => hp (page h48)]
    rfl

theorem loadSnapshot_isSome_iff {n : Snapshot} {draw : Word} {s : State} :
    (loadSnapshot n draw s).isSome = true ↔ ∃ im, Loads n im s := by
  rw [Option.isSome_iff_exists]
  simp only [loadSnapshot_eq_some_iff]
  exact ⟨fun ⟨_, im, checks, _⟩ => ⟨im, checks⟩, fun ⟨im, checks⟩ => ⟨_, im, checks, rfl⟩⟩

/-- Settles O59: the checks are `Loads`, and what is written is read off `loadedState`. -/
theorem loadSnapshotChecks : Obligations.LoadSnapshot := by
  intro n draw s
  refine ⟨?_, fun t h => ?_⟩
  · rw [loadSnapshot_isSome_iff, ← exists_intModeNum_eq_iff]
    constructor
    · rintro ⟨im, mode, count, size, page⟩
      exact ⟨count, size, ⟨im, mode⟩, page⟩
    · rintro ⟨count, size, ⟨im, mode⟩, page⟩
      exact ⟨im, mode, count, size, page⟩
  · obtain ⟨im, checks, rfl⟩ := loadSnapshot_eq_some_iff.1 h
    iterate 24 refine ⟨rfl, ?_⟩
    refine ⟨checks.mode, rfl, fun h128 => if_pos h128, fun j off p v hp hv => ?_, rfl, rfl, rfl, rfl, rfl, rfl, rfl, rfl,
      rfl, rfl, rfl, rfl, rfl, rfl, rfl, rfl⟩
    have byte := Memory.read_ofBytes 0 (cellKey j off) n.pages.flatten
    rw [getElem?_flatten_of_pages checks.size hp hv, Nat.zero_add] at byte
    exact byte

/-! ### The round trip -/

theorem setWidth_extractLsb'_six (v : Byte) : (v.extractLsb' 0 6).setWidth 8 = v &&& 0x3F := by
  revert v
  decide

theorem extractLsb'_setWidth_six (v : BitVec 6) : (v.setWidth 8).extractLsb' 0 6 = v := by
  revert v
  decide

/-- A dump passes the checks. -/
theorem loads_dumpSnapshot (s : State) : Loads (dumpSnapshot s) s.im s where
  mode := rfl
  count := length_dumpPages ..
  size _ := length_of_mem_dumpPages
  paging h48 := if_neg (by rw [h48]; decide)

theorem loadedState_dumpSnapshot {s : State} (inv : s.Inv) (draw : Word) :
    loadedState (dumpSnapshot s) s.im draw s =
      { s with halted := false, inhibit := false, nmiPending := false, memptr := draw } := by
  have ram : Memory.ofBytes 0 (dumpSnapshot s).pages.flatten = s.ram := by
    refine (congrArg _ (flatten_dumpPages ..)).trans ?_
    exact Memory.ofBytes_readRange inv.ram_wf inv.ram_below
  have paging :
      (if s.cfg.model = .m128 then (dumpSnapshot s).paging.extractLsb' 0 6 else s.paging) = s.paging := by
    split
    · rw [dumpSnapshot, if_pos ‹_›, extractLsb'_setWidth_six]
    · rfl
  rw [loadedState, ram, paging]
  rfl

theorem dumpSnapshot_loadedState {n : Snapshot} {im : IntMode} {s : State} (checks : Loads n im s) (draw : Word) :
    dumpSnapshot (loadedState n im draw s) = { n with paging := n.paging &&& 0x3F } := by
  have pages : dumpPages (Memory.ofBytes 0 n.pages.flatten) 0 (ramPages s.cfg.model) = n.pages := by
    rw [← checks.count]
    exact dumpPages_ofBytes_flatten checks.size
  have paging :
      (if s.cfg.model = .m128 then (if s.cfg.model = .m128 then n.paging.extractLsb' 0 6 else s.paging).setWidth 8
        else 0) = n.paging &&& 0x3F := by
    cases hm : s.cfg.model with
    | m48 =>
      rw [checks.paging hm]
      rfl
    | m128 => exact setWidth_extractLsb'_six n.paging
  rw [dumpSnapshot, loadedState, pages, paging, checks.mode]

/-- Settles O60: a dump passes the checks, and each of load and dump undoes the other. -/
theorem snapshotRoundTrip : Obligations.SnapshotRoundTrip := by
  refine ⟨fun s draw inv => ?_, fun n draw s t _ h => ?_⟩
  · rw [loadSnapshot_eq_some_iff]
    exact ⟨s.im, loads_dumpSnapshot s, loadedState_dumpSnapshot inv draw⟩
  · obtain ⟨im, checks, rfl⟩ := loadSnapshot_eq_some_iff.1 h
    exact dumpSnapshot_loadedState checks draw

end Sys2Proof.Machine
end
